-- ==== Sys2Proof/Word.lean ====
section
/-! DEFINITION. The widths of the block's values (spec/00_scope.md R7, R8): every value is an unsigned integer of a stated
width or an enumeration; bits are numbered from 0 at the least significant bit, and there is no sign extension. -/

namespace Sys2Proof

/-- One byte: a bus byte, a byte of the record buffer, a CRC (R8: 8 bits). -/
abbrev Byte := BitVec 8

/-- A DeviceIdentifier, a ResistanceCode or the magic (R8: 32 bits). -/
abbrev Word32 := BitVec 32

/-- The high identifier field (R153: 24 bits). -/
abbrev Word24 := BitVec 24

/-- A host command code, format HC (R71: `op[1:0]`). -/
abbrev HcCode := BitVec 2

/-- A three-bit code: a bus request (format BR, R72), a fault kind (format ERR, R75), or the retry counter (R27). -/
abbrev Code3 := BitVec 3

/-- The answer of READ_BLOCK(128): exactly 128 bytes by its type, index 0 the first byte received (R54, R95). A shorter or
longer answer cannot be written down (90_conflicts C3). -/
abbrev Block := Vector Byte 128

end Sys2Proof
end

