-- ==== Sys2Proof/Config.lean ====
section
/-! DEFINITION. The configuration CFG of spec/00_scope.md R6: the parameters that the source leaves OPEN (the two field
offsets and eight of the eleven rows of the classification table), with the constraints the spec puts on them. A
configuration carries the proof of its constraints, so an inadmissible one cannot be built. Nothing here is a default:
`Config.free` is a free value, and the reference configuration stands only for the spec's test vectors. -/

namespace Sys2Proof

/-- One row of CLSROM (format ROW, R77): a 32-bit key and a 32-bit value. -/
abbrev Row := Word32 × Word32

/-- The three rows the source gives; they hold in every configuration (spec/45_classification_rom.md R171). -/
def knownRows : List Row :=
  [(0x10139465, 0x00030000), (0xAACAACAA, 0x00040000), (0x10139462, 0x00060000)]

/-- The OPEN parameters of R6 before their constraints are checked. -/
structure ConfigData where
  /-- Byte offset of `id_low` in the record (R152; whole bytes, log entry 21). -/
  offIdLow : Nat
  /-- Byte offset of the first of the three bytes of `id_high` (R153). -/
  offIdHigh : Nat
  /-- The rows of CLSROM that the source does not give (R172). -/
  tableRest : List Row
deriving DecidableEq, Repr

/-- `OFF_ID_LOW` lies in 4..127 (R6). -/
abbrev ConfigData.lowInRange (c : ConfigData) : Prop := 4 ≤ c.offIdLow ∧ c.offIdLow ≤ 127

/-- `OFF_ID_HIGH` lies in 4..125, so its three bytes lie in 4..127 (R6). -/
abbrev ConfigData.highInRange (c : ConfigData) : Prop := 4 ≤ c.offIdHigh ∧ c.offIdHigh ≤ 125

/-- `OFF_ID_LOW` is not inside `OFF_ID_HIGH .. OFF_ID_HIGH+2` (R6). -/
abbrev ConfigData.fieldsDisjoint (c : ConfigData) : Prop :=
  c.offIdLow < c.offIdHigh ∨ c.offIdHigh + 2 < c.offIdLow

/-- `TABLE_REST` has exactly 8 rows (R172). -/
abbrev ConfigData.eightRows (c : ConfigData) : Prop := c.tableRest.length = 8

/-- The eleven keys are pairwise distinct: the eight among themselves, and none is one of the three known keys (R172). -/
abbrev ConfigData.keysDistinct (c : ConfigData) : Prop :=
  ((knownRows ++ c.tableRest).map Prod.fst).Pairwise (· ≠ ·)

/-- The constraints of R6 and R172, together. -/
abbrev ConfigData.wf (c : ConfigData) : Prop :=
  c.lowInRange ∧ c.highInRange ∧ c.fieldsDisjoint ∧ c.eightRows ∧ c.keysDistinct

/-- CFG (R6): admissible parameters, fixed when the block is built. -/
structure Config extends ConfigData where
  /-- The constraints of R6 hold. -/
  ok : toConfigData.wf
deriving DecidableEq, Repr

/-- `SYN_REST` of spec/95_test_vectors.md 2.1: synthetic rows for the test vectors, no data about the hardware. -/
def synRest : List Row :=
  [(1, 0x00050000), (2, 0x00070000), (3, 0x00080000), (4, 0x00030000),
   (5, 0x00060000), (6, 0x00010000), (7, 0x00000000), (8, 0x80000000)]

/-- `CFG_REF` of spec/95_test_vectors.md 2.1: for test vectors, and to show that an admissible configuration exists. -/
def Config.ref : Config where
  offIdLow := 4
  offIdHigh := 8
  tableRest := synRest
  ok := by decide

/-- The configuration of the block as built: a free value with no body (it asks only that SOME admissible configuration
exists), so nothing about its offsets or its eight rows can be proved beyond the constraints of R6. DESIGN CHOICE, log
entry 1: the free value stands in the state after reset; a statement about all states is a statement about every
configuration. -/
opaque Config.free [Inhabited Config] : Config

end Sys2Proof
end

