-- ==== Sys2Proof/Syntax.lean ====
section
/-! DEFINITION. What stands in for an instruction set (spec/00_scope.md R1): the four host commands (format HC), the six
bus requests (format BR) and the one 1-Wire command frame (format W1), one constructor per row of
spec/opcode_table.json; the fault kinds (format ERR); and a bus request with its payload, as the bus trace shows it. -/

namespace Sys2Proof

/-- The three encodings an instruction of the table has (R70). They travel on different ports: host commands on the
command port, bus requests on the bus port, the frame as the payload of WRITE. -/
inductive Format where
  /-- A host command, 2 bits (R71). -/
  | hc
  /-- A bus request, 3 bits (R72). -/
  | br
  /-- The 1-Wire command frame, 4 bytes (R73). -/
  | w1
deriving DecidableEq, Repr

/-- The instructions: every row of spec/opcode_table.json. None has an operand field (R71 to R74). -/
inductive Instr where
  /-- ATTACH, HC `00` (R110). -/
  | attach
  /-- DETACH, HC `01` (R160). -/
  | detach
  /-- HAS_IDENTITY, HC `10` (R161). -/
  | hasIdentity
  /-- CLASSIFICATION, HC `11` (R162). -/
  | classification
  /-- LOCK, BR `000` (R91). -/
  | lock
  /-- RESET, BR `001`: the bus reset pulse (R92). -/
  | reset
  /-- WRITE, BR `010` (R93). -/
  | write
  /-- READ_BYTE, BR `011` (R94). -/
  | readByte
  /-- READ_BLOCK, BR `100` (R95). -/
  | readBlock
  /-- UNLOCK, BR `101` (R96). -/
  | unlock
  /-- READ_RECORD_FRAME, the W1 frame `CC F0 00 00` (R73). -/
  | readRecordFrame
deriving DecidableEq, Repr

/-- The fault kinds of format ERR (R75), `ok` among them. -/
inductive Err where
  | ok
  | busResetFailure
  | commandCrcMismatch
  | payloadCrcMismatch
  | retriesExhausted
  | invalidMagic
deriving DecidableEq, Repr

/-- The class of a fault kind (R75, R186). -/
inductive ErrClass where
  /-- `ok` is no fault. -/
  | success
  /-- Consumes one retry and restarts the sequence. -/
  | transient
  /-- Ends the attach. -/
  | permanent
deriving DecidableEq, Repr

/-- A bus request with its arguments, as it stands on the bus trace (R11 b, R72, R82). -/
inductive BusRequest where
  | lock
  | reset
  | write (bytes : List Byte)
  | readByte
  | readBlock (len : Nat)
  | unlock
deriving DecidableEq, Repr

end Sys2Proof
end

