-- ==== Sys2Proof/Decode.lean ====
section
/-! DEFINITION. The encodings of spec/30_encoding.md: decoders of the three formats, total on any bytes and rejecting by
name; the encoder, written from the same tables; the fault codes; and the encoding of a host program. The
codes of the formats HC, BR and ERR are the spec's own decisions D2 to D4 (log entry 17). -/

namespace Sys2Proof

/-! ## The constants of the command frame (R5, R73) -/

/-- `SKIP_ROM`, the first byte of the frame: address all devices. -/
def skipRom : Byte := 0xCC

/-- `READ_MEMORY_FIELD_CRC`, the second byte: begin a CRC-checked memory read. -/
def readMemoryFieldCrc : Byte := 0xF0

/-- `ADDR_BYTE_0`, the low byte of the read offset (R74; which half is immaterial, D17). -/
def addrByte0 : Byte := 0x00

/-- `ADDR_BYTE_1`, the other byte of the read offset. -/
def addrByte1 : Byte := 0x00

/-- The one frame the block can emit, first transmitted byte first (R73). -/
def commandFrame : List Byte := [skipRom, readMemoryFieldCrc, addrByte0, addrByte1]

/-- The length of READ_BLOCK, `REC_LEN` (R5, R72). -/
def recLen : Nat := 128

/-! ## Decoding -/

/-- The format an instruction is encoded in (R71 to R73). -/
def Instr.format : Instr → Format
  | .attach => .hc
  | .detach => .hc
  | .hasIdentity => .hc
  | .classification => .hc
  | .lock => .br
  | .reset => .br
  | .write => .br
  | .readByte => .br
  | .readBlock => .br
  | .unlock => .br
  | .readRecordFrame => .w1

/-- Why a decoder rejects the bytes it is given (R79: reserved spaces have no meaning). -/
inductive DecodeError where
  /-- The bytes end before the instruction does. -/
  | tooFewBytes (f : Format)
  /-- The byte on a port narrower than a byte has a bit set above the port's width. -/
  | codeTooWide (f : Format) (b : Byte)
  /-- A reserved bus request code, `110` or `111` (R72, R79). -/
  | reservedRequest (code : Code3)
  /-- A frame other than `CC F0 00 00` (R79). -/
  | unknownFrame (b0 b1 b2 b3 : Byte)
deriving DecidableEq, Repr

/-- Format HC: all four codes are commands, so decoding a host command cannot fail (R71, R78). -/
def decodeHc (op : HcCode) : Instr :=
  match op.toNat with
  | 0 => .attach
  | 1 => .detach
  | 2 => .hasIdentity
  | _ => .classification

/-- Format BR: six codes are requests, `110` and `111` are reserved (R72). -/
def decodeBr (req : Code3) : Except DecodeError Instr :=
  match req.toNat with
  | 0 => .ok .lock
  | 1 => .ok .reset
  | 2 => .ok .write
  | 3 => .ok .readByte
  | 4 => .ok .readBlock
  | 5 => .ok .unlock
  | _ => .error (.reservedRequest req)

/-- Format W1: every byte of the frame is a constant (R73); any other frame has no meaning here (R79). -/
def decodeW1 (b0 b1 b2 b3 : Byte) : Except DecodeError Instr :=
  if b0 = skipRom ∧ b1 = readMemoryFieldCrc ∧ b2 = addrByte0 ∧ b3 = addrByte1 then .ok .readRecordFrame
  else .error (.unknownFrame b0 b1 b2 b3)

/-- The instruction at the head of the bytes presented in a format, with the bytes that remain. A host command or a bus
request is presented as one byte that holds its code in its low bits. -/
def decode (f : Format) (bytes : List Byte) : Except DecodeError (Instr × List Byte) :=
  match f, bytes with
  | .hc, b :: rest =>
    if b.toNat < 4 then .ok (decodeHc (b.setWidth 2), rest) else .error (.codeTooWide .hc b)
  | .br, b :: rest =>
    if b.toNat < 8 then (decodeBr (b.setWidth 3)).map (·, rest) else .error (.codeTooWide .br b)
  | .w1, b0 :: b1 :: b2 :: b3 :: rest => (decodeW1 b0 b1 b2 b3).map (·, rest)
  | f, _ => .error (.tooFewBytes f)

/-! ## Encoding -/

/-- The bytes of an instruction in its own format (R71 to R73). -/
def encode : Instr → List Byte
  | .attach => [0b00]
  | .detach => [0b01]
  | .hasIdentity => [0b10]
  | .classification => [0b11]
  | .lock => [0b000]
  | .reset => [0b001]
  | .write => [0b010]
  | .readByte => [0b011]
  | .readBlock => [0b100]
  | .unlock => [0b101]
  | .readRecordFrame => commandFrame

/-- The instruction a bus request of the trace stands for (R72). -/
def BusRequest.instr : BusRequest → Instr
  | .lock => .lock
  | .reset => .reset
  | .write _ => .write
  | .readByte => .readByte
  | .readBlock _ => .readBlock
  | .unlock => .unlock

/-! ## Fault codes, format ERR (R75) -/

/-- The 3-bit code of a fault kind. -/
def Err.code : Err → Code3
  | .ok => 0
  | .busResetFailure => 1
  | .commandCrcMismatch => 2
  | .payloadCrcMismatch => 3
  | .retriesExhausted => 4
  | .invalidMagic => 5

/-- The fault kind of a 3-bit code; 6 and 7 are reserved and never produced (R75, R79). -/
def Err.ofCode (c : Code3) : Option Err :=
  match c.toNat with
  | 0 => some .ok
  | 1 => some .busResetFailure
  | 2 => some .commandCrcMismatch
  | 3 => some .payloadCrcMismatch
  | 4 => some .retriesExhausted
  | 5 => some .invalidMagic
  | _ => none

/-! ## Host programs -/

/-- The instructions of a host program given as its codes in order (R81). -/
def decodeProgram (codes : List HcCode) : List Instr := codes.map decodeHc

/-- The encoding of a host program: the concatenation of its 2-bit codes in order, first command in the most significant
position (R81), read as one number. -/
def programWord (codes : List HcCode) : Nat := codes.foldl (fun n c => 4 * n + c.toNat) 0

/-! ## The host's table words -/

/-- The four bytes of a 32-bit W1 pattern in transmission order: the first byte transmitted is the most significant
(R84). -/
def frameBytes (w : Nat) : List Byte :=
  [BitVec.ofNat 8 (w / 0x1000000), BitVec.ofNat 8 (w / 0x10000), BitVec.ofNat 8 (w / 0x100), BitVec.ofNat 8 w]

/-- The format and bytes that a row's bits stand for. The formats HC and BR share code values because they travel on
different ports, and a number of bits in whole bytes does not tell them apart. DESIGN CHOICE, log entry 2: 2 bits are
format HC, 3 bits format BR; in one whole byte a value below 4 is read as a host command and any other value as a bus
request; 32 bits are the frame. -/
def tableBytes (nbits w : Nat) : Option (Format × List Byte) :=
  match nbits with
  | 2 => if w < 4 then some (.hc, [BitVec.ofNat 8 w]) else none
  | 3 => if w < 8 then some (.br, [BitVec.ofNat 8 w]) else none
  | 8 => if w < 4 then some (.hc, [BitVec.ofNat 8 w]) else if w < 256 then some (.br, [BitVec.ofNat 8 w]) else none
  | 32 => if w < 0x100000000 then some (.w1, frameBytes w) else none
  | _ => none

/-- The instruction that the decoder reads from a table word; none where it refuses. -/
def decodeTableWord (nbits w : Nat) : Option Instr :=
  match tableBytes nbits w with
  | none => none
  | some (f, bytes) =>
    match decode f bytes with
    | .ok (i, _) => some i
    | .error _ => none

end Sys2Proof
end

