-- ==== Sys2Proof/WellFormed.lean ====
section
/-! DEFINITION. What is well-formed. No instruction has an operand (R71 to R74), so every instruction is; the checks that
say something are those on a bus request's payload (R72), on a fault code (R75, R79), on an answer and on a diagnostic
event (R33), and those on a configuration, which stand in Config.lean (R6). -/

namespace Sys2Proof

/-- Every instruction is well-formed: no row of the table has a field (R71 to R74, R78). -/
def Instr.wf : Instr → Bool
  | .attach => true
  | .detach => true
  | .hasIdentity => true
  | .classification => true
  | .lock => true
  | .reset => true
  | .write => true
  | .readByte => true
  | .readBlock => true
  | .unlock => true
  | .readRecordFrame => true

/-- The block emits a request only with the payload the table of R72 shows: WRITE the command frame, READ_BLOCK the
length 128. -/
def BusRequest.wf : BusRequest → Bool
  | .lock => true
  | .reset => true
  | .write bytes => decide (bytes = commandFrame)
  | .readByte => true
  | .readBlock len => decide (len = recLen)
  | .unlock => true

/-- A code of format ERR that names a fault kind (R75: 6 and 7 are reserved). -/
def errCodeWf (c : Code3) : Bool := decide (c.toNat ≤ 5)

/-- A code the ATTACH command may answer: 0, 4 or 5 (R33, R110). -/
def attachCodeWf (c : Code3) : Bool := decide (c = 0 ∨ c = 4 ∨ c = 5)

/-- A code the diagnostic port may carry: 1 to 5 (R33, R199). -/
def diagCodeWf (c : Code3) : Bool := decide (1 ≤ c.toNat ∧ c.toNat ≤ 5)

end Sys2Proof
end

