-- ==== Sys2Proof/Machine/State.lean ====
section
/-! DEFINITION. The state of the block (spec/10_state.md R20) and of what stands around it: the host contexts with their
commands and answers (R10, R198), the answers the bus master has ready (R97), the ownership of the bus by others (R91),
the observable traces (R11), and the schedule that says which agent moves next (R10). Plain data throughout. -/

namespace Sys2Proof.Machine

/-- The eleven states of the sequencer, the block's program-counter analogue (R25). Their index is not observable; the
names are used. -/
inductive SeqState where
  /-- No attach in progress. -/
  | idle
  /-- Issue LOCK. -/
  | lock
  /-- Test the retry budget. -/
  | check
  /-- Issue RESET, test presence. -/
  | reset
  /-- Issue WRITE of the command frame. -/
  | write
  /-- Issue READ_BYTE, compare with the CRC of `CMD[1..3]`. -/
  | cmdCrc
  /-- Issue READ_BLOCK(128) into `REC`. -/
  | block
  /-- Issue READ_BYTE, compare with the CRC of `REC[0..127]`. -/
  | dataCrc
  /-- Test the magic. -/
  | parse
  /-- Store the identifier. -/
  | store
  /-- Issue UNLOCK, answer ATTACH, clear BUSY. -/
  | exit
deriving DecidableEq, Repr

/-- The answer of a bus RESET (R92). -/
inductive Presence where
  | present
  | absent
deriving DecidableEq, Repr

/-- The answer of a host command (R165). -/
inductive Answer where
  /-- ATTACH: a 3-bit ERR code. -/
  | err (code : Code3)
  /-- DETACH: completion only. -/
  | done
  /-- HAS_IDENTITY: one bit. -/
  | bit (b : Bool)
  /-- CLASSIFICATION: 32 bits, unsigned. -/
  | code (v : Word32)
deriving DecidableEq, Repr

/-- Which agent moves in a step (R10), or that the reset event occurs (R210). -/
inductive Turn where
  /-- A host context issues its next command, or presents its held ATTACH again. -/
  | host (ctx : Nat)
  /-- The block's sequencer takes a step. -/
  | seq
  /-- The sequencer takes its `S_WRITE` step, fetched as the W1 frame it transmits rather than as the BR request that
  carries it: the same step under its other row of the opcode table (log entry 5). -/
  | frame
  /-- Another user of the bus takes the bus lock, if it is free (R64, R91). -/
  | otherTakes
  /-- The other user releases it (R91). -/
  | otherReleases
  /-- The bus master stops answering for a while, or for ever (R90, R223). -/
  | busStalls
  /-- The bus master answers again (R90). -/
  | busResumes
  /-- The reset event (R210): it may occur at any time, and no host command causes it. -/
  | reset
deriving DecidableEq, Repr

/-- The record buffer's contents: address and byte, addresses strictly rising, no entry equal to what an unlisted address
reads as (`Memory.unlisted`, 0). DESIGN CHOICE, log entry 3. -/
abbrev Memory := List Host.Cell

/-- The whole state, plain data. The first seven fields are the elements of R20 (`CMD` is hard-wired and has an accessor
instead of a field, R24; `ID_VALID` and `ID` are one optional value, as R22 asks); `cfg` is CFG (R6); the rest is the
environment of the block, in the model's own form (log entries 4 and 6). -/
structure State where
  /-- `ID_VALID` and `ID`: `none` is `ID_VALID = 0` (R21, R22; log entry 15). -/
  identity : Option Word32
  /-- `BUSY` (R28). -/
  busy : Bool
  /-- `ST` (R25). -/
  st : SeqState
  /-- `RETRY`, 3 bits (R27). -/
  retry : Code3
  /-- `REC[0..127]` (R29). -/
  record : Memory
  /-- `CRCB`, 8 bits (R30). -/
  crcb : Byte
  /-- `RES`, a 3-bit ERR code (R31). -/
  res : Code3
  /-- CFG: fixed when the block is built; no step writes it (R6, R33). -/
  cfg : Config
  /-- The host programs (R81, R226): each command not yet issued, with the context that will issue it, in each context's
  own order. -/
  programs : List (Nat × HcCode)
  /-- The context whose command stands on the command port. -/
  issuer : Nat
  /-- The context whose ATTACH is being served; it has a meaning only while `BUSY = 1` (R110). -/
  server : Nat
  /-- The contexts whose ATTACH is held (R110 a, R198 b; log entry 16). -/
  held : List Nat
  /-- Every answer delivered, oldest first, with the context it went to (R11 a, R165). -/
  answers : List (Nat × Answer)
  /-- Another user of the bus owns the bus lock (R64, R91; log entry 18). -/
  otherOwns : Bool
  /-- The bus master is not answering: no request completes meanwhile, WRITE and UNLOCK included (R90, R223). -/
  stalled : Bool
  /-- The presence answers the bus master will give to RESET, next one first (R92, R97). -/
  presences : List Presence
  /-- The bytes it will give to READ_BYTE (R94, R97; log entry 14). -/
  bytesIn : List Byte
  /-- The blocks it will give to READ_BLOCK (R95, R97). -/
  blocksIn : List Block
  /-- The bus trace, oldest request first (R11 b); a request is recorded when it is answered (log entry 13). -/
  busTrace : List BusRequest
  /-- The diagnostic events, oldest first (R11 c, R199). -/
  diagTrace : List Code3
  /-- The schedule: whose turn each coming step is; after its end every turn is the sequencer's (log entry 4). -/
  turns : List Turn
deriving DecidableEq, Repr

/-- The faults of a step of this MODEL. The five fault kinds of the spec (R180) are not among them: they are ordinary
outcomes of a step, reported on the diagnostic port and in the ATTACH answer, after which the machine goes on (R225). -/
inductive Fault where
  /-- Raised by the meaning of a bus request or of the frame when the sequencer is not in a state that issues it: the
  spec gives such a request no effect, since the block never issues it (R98, R10). Safe: no step of the machine reaches
  it. DESIGN CHOICE, log entry 11. -/
  | requestNotIssued (st : SeqState)
deriving DecidableEq, Repr

/-- Why an instruction has no meaning. -/
inductive Refusal where
  /-- Raised by a dispatch arm that has no meaning yet (none is left). Safe. -/
  | notModelled (mnemonic : String)
  /-- Raised by `step` when the presented bytes are a reserved encoding (R79). Safe: no port of the block ever carries
  one. DESIGN CHOICE, log entry 20. -/
  | undecodable (e : DecodeError)
deriving DecidableEq, Repr

/-- The state right after reset (R36, R211): no identity, not busy, idle. `RETRY`, `REC`, `CRCB` and `RES` are
unspecified by R36 and take the value 0 here (DESIGN CHOICE, log entry 3); CFG is the free configuration (log entry 1);
the environment's fields are empty (DESIGN CHOICE, log entry 6): no host program, no answer ready, the bus free. -/
def State.reset : State where
  identity := none
  busy := false
  st := .idle
  retry := 0
  record := []
  crcb := 0
  res := 0
  cfg := @Config.free ⟨Config.ref⟩
  programs := []
  issuer := 0
  server := 0
  held := []
  answers := []
  otherOwns := false
  stalled := false
  presences := []
  bytesIn := []
  blocksIn := []
  busTrace := []
  diagTrace := []
  turns := []

end Sys2Proof.Machine
end

