-- ==== Sys2Proof/Machine/Params.lean ====
section
/-! DEFINITION. The fixed parameters of spec/00_scope.md R5 that the machine uses (those of the command frame and the
record's length stand with the encodings, in Decode.lean). -/

namespace Sys2Proof.Machine

/-- `RETRY_BUDGET`: 5 attempts per attach, in all (R5, R27; 90_conflicts C7). -/
def retryBudget : Code3 := 5

/-- `MAGIC`: the required value of the record's first four bytes (R5, R151). -/
def magicValue : Word32 := 0xE54C21ED

/-- `CRC_POLY_REFLECTED`: the polynomial 0x31 in reflected form (R5, R140). -/
def crcPoly : Byte := 0x8C

/-- `CRC_INIT` (R5, R140). -/
def crcInit : Byte := 0x00

end Sys2Proof.Machine
end

