-- ==== Sys2Proof/Machine/Crc8.lean ====
section
/-! DEFINITION. The CRC-8 function of the double-check validator (spec/42_crc8_validator.md R140): a pure function inside
the block, not a bus request (R99, R146). The bit-level form comes into the spec from general knowledge (G1): UNVERIFIED,
log entry 9. -/

namespace Sys2Proof.Machine

/-- One turn of R140's inner loop: shift right by one, and add the reflected polynomial if the bit shifted out was 1. -/
def crcShift (c : Byte) : Byte := if c.getLsbD 0 then (c >>> 1) ^^^ crcPoly else c >>> 1

/-- `n` turns of the inner loop. -/
def crcShifts : Nat → Byte → Byte
  | 0, c => c
  | n + 1, c => crcShifts n (crcShift c)

/-- One byte enters the register: exclusive OR, then eight turns. -/
def crcByte (c b : Byte) : Byte := crcShifts 8 (c ^^^ b)

/-- `crc8` (R140): from `CRC_INIT`, every byte in increasing order, with no final exclusive OR. -/
def crc8 (bytes : List Byte) : Byte := bytes.foldl crcByte crcInit

end Sys2Proof.Machine
end

