-- ==== Sys2Proof/Machine/Ops.lean ====
section
/-! DEFINITION. The named operations: on the record buffer (spec/20_memory.md), on the bus port (spec/40_bus_interface.md),
on the answer and diagnostic ports (R11), taking a fault and returning from an attach (spec/60_exceptions.md R188 to
R190), and the reset event (spec/70_reset_and_hazards.md R211, R212). -/

namespace Sys2Proof.Machine

/-! ## The record buffer (R50, R51) -/

/-- What an address with no entry reads as. The contents of `REC` after reset are unspecified (R36) and are never read
before `S_BLOCK` has written all of them (R24). DESIGN CHOICE, log entry 3. -/
def Memory.unlisted : Byte := 0

/-- The byte at an address: `REC[a]` (R9). -/
def Memory.read : Memory → Nat → Byte
  | [], _ => Memory.unlisted
  | (x, c) :: m, a => if x = a then c else Memory.read m a

/-- Store one byte and keep the canonical form: an entry equal to what an unlisted address reads as is removed. -/
def Memory.write : Memory → Nat → Byte → Memory
  | [], a, b => if b = Memory.unlisted then [] else [(a, b)]
  | (x, c) :: m, a, b =>
    if a < x then (if b = Memory.unlisted then (x, c) :: m else (a, b) :: (x, c) :: m)
    else if a = x then (if b = Memory.unlisted then m else (a, b) :: m)
    else (x, c) :: Memory.write m a b

/-- The contents that a sequence of bytes leaves from an address on, where nothing else is stored. -/
def Memory.loadFrom : Nat → List Byte → Memory
  | _, [] => []
  | a, b :: bs => Memory.write (Memory.loadFrom (a + 1) bs) a b

/-- `REC <- bytes` (R9, R116): all 128 bytes are written, index 0 first, and the previous content is lost entirely. -/
def Memory.ofBlock (r : Block) : Memory := Memory.loadFrom 0 r.toList

/-- `REC[0..127]`: the 128 bytes in increasing index order (R51). -/
def Memory.bytes (m : Memory) : List Byte := (List.range recLen).map m.read

/-- The addresses of a memory rise strictly from `lo` on, stay below the buffer's 128 bytes (R51), and no entry equals
what an unlisted address reads as. -/
def Memory.wfFrom : Nat → Memory → Bool
  | _, [] => true
  | lo, (x, c) :: m =>
    decide (lo ≤ x) && decide (x < recLen) && decide (c ≠ Memory.unlisted) && Memory.wfFrom (x + 1) m

/-- The canonical form of the record buffer. -/
def Memory.wf (m : Memory) : Bool := Memory.wfFrom 0 m

/-! ## Registers and ports -/

/-- `ST <- S_NAME` (R9). -/
def State.goto (s : State) (x : SeqState) : State := { s with st := x }

/-- A bus request is issued: it appears on the bus trace (R11 b). -/
def State.request (s : State) (r : BusRequest) : State := { s with busTrace := s.busTrace ++ [r] }

/-- `diag(code)`: one event on the diagnostic port (R9, R199). -/
def State.emitDiag (s : State) (e : Err) : State := { s with diagTrace := s.diagTrace ++ [e.code] }

/-- `respond(v)`: the answer of a command is delivered to the context that issued it (R9, R165). -/
def State.respond (s : State) (ctx : Nat) (a : Answer) : State := { s with answers := s.answers ++ [(ctx, a)] }

/-- `CRCB <- byte` (R94). -/
def State.latchCrc (s : State) (b : Byte) : State := { s with crcb := b }

/-- `REC <- bus.READ_BLOCK(128)` (R95). -/
def State.loadRecord (s : State) (r : Block) : State := { s with record := Memory.ofBlock r }

/-- `(ID, ID_VALID) <- (id, 1)`: one atomic write (R59 a, R119). -/
def State.storeIdentity (s : State) (v : Word32) : State := { s with identity := some v }

/-- `ID_VALID <- 0` (R160). -/
def State.clearIdentity (s : State) : State := { s with identity := none }

/-- `CMD[0..3]`: hard-wired, never written, whatever the state (R24). -/
def State.cmd (_ : State) : List Byte := commandFrame

/-- The block holds the bus lock: exactly while `ST` is none of `S_IDLE`, `S_LOCK` (R34). -/
def State.holdsLock (s : State) : Bool :=
  match s.st with
  | .idle => false
  | .lock => false
  | .check => true
  | .reset => true
  | .write => true
  | .cmdCrc => true
  | .block => true
  | .dataCrc => true
  | .parse => true
  | .store => true
  | .exit => true

/-! ## The answers of the bus master (R97): each is taken from the environment, next one first, while it answers (R90) -/

/-- LOCK completes: the bus master answers and no other user owns the bus (R91). -/
def State.lockGranted (s : State) : Bool := !s.stalled && !s.otherOwns

/-- The answer of RESET, if the bus master has one ready. -/
def State.takePresence (s : State) : Option (Presence × State) :=
  if s.stalled then none
  else match s.presences with
    | [] => none
    | p :: ps => some (p, { s with presences := ps })

/-- The answer of READ_BYTE, if the bus master has one ready. -/
def State.takeByte (s : State) : Option (Byte × State) :=
  if s.stalled then none
  else match s.bytesIn with
    | [] => none
    | b :: bs => some (b, { s with bytesIn := bs })

/-- The answer of READ_BLOCK, if the bus master has one ready. -/
def State.takeBlock (s : State) : Option (Block × State) :=
  if s.stalled then none
  else match s.blocksIn with
    | [] => none
    | r :: rs => some (r, { s with blocksIn := rs })

/-! ## Taking a fault, and the return (R186 to R190) -/

/-- The class of a fault kind, fixed (R75, R186). -/
def errClass : Err → ErrClass
  | .ok => .success
  | .busResetFailure => .transient
  | .commandCrcMismatch => .transient
  | .payloadCrcMismatch => .transient
  | .retriesExhausted => .permanent
  | .invalidMagic => .permanent

/-- `fault <NAME>` (R9): the entry of a fault, in the step that detects it. A transient fault emits its code, consumes one
retry and goes back to `S_CHECK` (R121, R188); a permanent one emits its code, latches it in `RES` and goes to `S_EXIT`
(R189). Nothing is saved; `ID_VALID`, `ID`, the lock and `BUSY` are untouched. A transient fault with `RETRY = 0` wraps; no
run reaches it (R8, R121; DESIGN CHOICE, log entry 22). -/
def State.takeFault (s : State) (e : Err) : State :=
  match errClass e with
  | .success => s
  | .transient => { s.emitDiag e with retry := s.retry - 1, st := .check }
  | .permanent => { s.emitDiag e with res := e.code, st := .exit }

/-- The end of an attach (R120): the waiting context receives `RES`, `BUSY` is cleared and the sequencer is idle. There is
no return instruction; this is the only way out of an attach but the reset event (R190). -/
def State.finishAttach (s : State) : State :=
  { s.respond s.server (.err s.res) with busy := false, st := .idle }

/-! ## Accepting and holding ATTACH (R110) -/

/-- The acceptance step of ATTACH (R110): BUSY is set, the budget loaded, the sequencer started; the issuing context
waits for the answer, and its command is no longer held. -/
def State.acceptAttach (s : State) : State :=
  { s with busy := true, retry := retryBudget, st := .lock, server := s.issuer, held := s.held.erase s.issuer }

/-- An ATTACH while `BUSY = 1` is held, neither refused nor dropped (R110 a). -/
def State.holdAttach (s : State) : State :=
  { s with held := if s.issuer ∈ s.held then s.held else s.held ++ [s.issuer] }

/-! ## The environment and the reset event -/

/-- Another user takes the bus lock; it can only while the block does not hold it (R64). -/
def State.otherTakesBus (s : State) : State :=
  if s.holdsLock then s else { s with otherOwns := true }

/-- The other user releases the bus lock (R91 a). -/
def State.otherReleasesBus (s : State) : State := { s with otherOwns := false }

/-- The bus master stops answering (R90, R223). -/
def State.busStalls (s : State) : State := { s with stalled := true }

/-- The bus master answers again (R90). -/
def State.busResumes (s : State) : State := { s with stalled := false }

/-- The reset event (R211, R212): the lock, if held, is released (UNLOCK appears on the trace exactly then), the identity
and BUSY are cleared, the sequencer is idle, and an ATTACH being served receives no answer. The unspecified registers take
the values they have in `State.reset` (DESIGN CHOICE, log entry 3); commands not yet accepted stay where they are, with
their contexts (DESIGN CHOICE, log entry 7). -/
def State.resetEvent (s : State) : State :=
  { s with
    busTrace := if s.holdsLock then s.busTrace ++ [.unlock] else s.busTrace
    identity := none
    busy := false
    st := .idle
    retry := State.reset.retry
    record := State.reset.record
    crcb := State.reset.crcb
    res := State.reset.res }

end Sys2Proof.Machine
end

