-- ==== Sys2Proof/Machine/Operands.lean ====
section
/-! DEFINITION. The values the steps read: the fields of the record (spec/43_record_parser.md), the classification of an
identifier (spec/45_classification_rom.md), the bytes of the command frame that the command-echo CRC covers (R74), and the
answers of the two queries (spec/44_detach_queries.md). Pure functions of the record, the configuration and the state. -/

namespace Sys2Proof.Machine

/-! ## The record parser (R150 to R156) -/

/-- `magic(REC)`: the first four bytes, least significant byte at the lowest offset (R151). -/
def magic (m : Memory) : Word32 := m.read 3 ++ m.read 2 ++ m.read 1 ++ m.read 0

/-- `id_low(REC)`: one byte at `OFF_ID_LOW` (R152). -/
def idLow (c : Config) (m : Memory) : Byte := m.read c.offIdLow

/-- `id_high(REC)`: 24 bits at `OFF_ID_HIGH`, least significant byte at the lowest offset (R153, by the spec's decision
D7: log entry 8). -/
def idHigh (c : Config) (m : Memory) : Word24 :=
  m.read (c.offIdHigh + 2) ++ m.read (c.offIdHigh + 1) ++ m.read c.offIdHigh

/-- `identifier(REC) = id_low | (id_high << 8)`, a 32-bit value; every value is legal (R154). -/
def identifier (c : Config) (m : Memory) : Word32 :=
  (idLow c m).setWidth 32 ||| ((idHigh c m).setWidth 32 <<< 8)

/-! ## The classification ROM (R170 to R176) -/

/-- The eleven rows of CLSROM: three known, eight of the configuration (R170 to R172). -/
def clsRows (c : Config) : List Row := knownRows ++ c.tableRest

/-- The value of the row whose key equals the identifier, 0 if none does: all 32 bits of the key are compared (R170,
R174, R176). -/
def lookupRow : List Row → Word32 → Word32
  | [], _ => 0
  | (key, value) :: rows, v => if key = v then value else lookupRow rows v

/-- `CLS(id)` (R170). -/
def cls (c : Config) (v : Word32) : Word32 := lookupRow (clsRows c) v

/-! ## The command frame -/

/-- The bytes the command-echo CRC covers: `CMD[1], CMD[2], CMD[3]`; `CMD[0]` is not covered (R74, R142). -/
def State.echoBytes (s : State) : List Byte := s.cmd.drop 1

/-! ## The answers of the queries -/

/-- The answer of HAS_IDENTITY: `ID_VALID` (R161). -/
def State.idValid (s : State) : Bool := s.identity.isSome

/-- The answer of CLASSIFICATION: `CLS(ID)` if an identity is stored, else 0; `ID` is not read when `ID_VALID = 0`
(R162). -/
def State.classification (s : State) : Word32 :=
  match s.identity with
  | some v => cls s.cfg v
  | none => 0

end Sys2Proof.Machine
end

