-- ==== Sys2Proof/Machine/Flags.lean ====
section
/-! DEFINITION. The four combinational conditions, computed and consumed inside one step and no state (spec/10_state.md
R32). The two stored flags, `ID_VALID` and `BUSY`, are fields of the state. -/

namespace Sys2Proof.Machine

/-- `budget_empty = (RETRY == 0)`, in `S_CHECK` (R112). -/
def State.budgetEmpty (s : State) : Bool := decide (s.retry = 0)

/-- `present`: the RESET answer, in `S_RESET` (R113). -/
def isPresent (p : Presence) : Bool := decide (p = .present)

/-- The reference of the command-echo check: `crc8(CMD[1], CMD[2], CMD[3])` (R142). -/
def State.echoCrc (s : State) : Byte := crc8 s.echoBytes

/-- The reference of the payload check: `crc8(REC[0..127])`, all 128 bytes (R143). -/
def State.recordCrc (s : State) : Byte := crc8 s.record.bytes

/-- `crc_ok` in `S_CMDCRC`: equality of all 8 bits (R142, R144). -/
def State.echoCrcOk (s : State) : Bool := decide (s.crcb = s.echoCrc)

/-- `crc_ok` in `S_DATACRC` (R143). -/
def State.recordCrcOk (s : State) : Bool := decide (s.crcb = s.recordCrc)

/-- `magic_ok = (magic == MAGIC)`, in `S_PARSE` (R151). -/
def State.magicOk (s : State) : Bool := decide (magic s.record = magicValue)

end Sys2Proof.Machine
end

