-- ==== Sys2Proof/Machine/BusRequests.lean ====
section
/-! DEFINITION. The meanings of the six bus requests (format BR). A request and its answer belong to the one sequencer step
that issues the request (R10), so the meaning of a request is that step: S_LOCK for LOCK (R111), S_RESET for RESET (R113),
S_WRITE for WRITE (R114), S_CMDCRC and S_DATACRC for READ_BYTE (R115, R117), S_BLOCK for READ_BLOCK (R116), S_EXIT for
UNLOCK (R120). Where the bus master has not answered yet, or the lock is not free, the step is not enabled: the sequencer
waits and the block is unchanged (R90, R111, R223; log entry 12). In a state that does not issue the request it has no effect in the
spec (R98) and the model stops with `Fault.requestNotIssued` (log entry 11). -/

namespace Sys2Proof.Machine

/-- The step of a WRITE: the payload bytes are transmitted first byte first and the sequencer moves to `S_CMDCRC`. It
cannot fail and has no answer data (R93, R114). -/
def State.transmitFrame (s : State) (bytes : List Byte) : State :=
  (s.request (.write bytes)).goto .cmdCrc

/-- S_RESET once its answer has arrived (R113). -/
def State.afterReset (s : State) (p : Presence) : State :=
  if isPresent p then (s.request .reset).goto .write else (s.request .reset).takeFault .busResetFailure

/-- S_CMDCRC once its byte has arrived (R115). -/
def State.afterEchoByte (s : State) (b : Byte) : State :=
  let t := (s.request .readByte).latchCrc b
  if t.echoCrcOk then t.goto .block else t.takeFault .commandCrcMismatch

/-- S_DATACRC once its byte has arrived (R117). -/
def State.afterPayloadByte (s : State) (b : Byte) : State :=
  let t := (s.request .readByte).latchCrc b
  if t.recordCrcOk then t.goto .parse else t.takeFault .payloadCrcMismatch

/-- S_BLOCK once its 128 bytes have arrived (R116): nothing is checked. -/
def State.afterBlock (s : State) (r : Block) : State :=
  ((s.request (.readBlock recLen)).loadRecord r).goto .dataCrc

/-- LOCK (R91, R111): completes when it is granted; until then the step waits. -/
def execLock (s : State) : Host.Outcome State Fault Refusal :=
  if s.st = .lock then .next (if s.lockGranted then (s.request .lock).goto .check else s)
  else .fault (.requestNotIssued s.st)

/-- RESET (R92, R113): the answer ABSENT raises BUS_RESET_FAILURE. -/
def execReset (s : State) : Host.Outcome State Fault Refusal :=
  if s.st = .reset then
    match s.takePresence with
    | some (p, t) => .next (t.afterReset p)
    | none => .next s
  else .fault (.requestNotIssued s.st)

/-- WRITE (R93, R114): transmits the four bytes of CMD. -/
def execWrite (s : State) : Host.Outcome State Fault Refusal :=
  if s.st = .write then .next (if s.stalled then s else s.transmitFrame s.cmd) else .fault (.requestNotIssued s.st)

/-- READ_BYTE (R94): the command-echo CRC in S_CMDCRC (R115), the payload CRC in S_DATACRC (R117). -/
def execReadByte (s : State) : Host.Outcome State Fault Refusal :=
  if s.st = .cmdCrc then
    match s.takeByte with
    | some (b, t) => .next (t.afterEchoByte b)
    | none => .next s
  else if s.st = .dataCrc then
    match s.takeByte with
    | some (b, t) => .next (t.afterPayloadByte b)
    | none => .next s
  else .fault (.requestNotIssued s.st)

/-- READ_BLOCK (R95, R116). -/
def execReadBlock (s : State) : Host.Outcome State Fault Refusal :=
  if s.st = .block then
    match s.takeBlock with
    | some (r, t) => .next (t.afterBlock r)
    | none => .next s
  else .fault (.requestNotIssued s.st)

/-- UNLOCK (R96, R120): the lock is released, then the answer given and BUSY cleared, in one step. -/
def execUnlock (s : State) : Host.Outcome State Fault Refusal :=
  if s.st = .exit then .next (if s.stalled then s else (s.request .unlock).finishAttach)
  else .fault (.requestNotIssued s.st)

end Sys2Proof.Machine
end

