-- ==== Sys2Proof/Machine/Frame.lean ====
section
/-! DEFINITION. The meaning of the 1-Wire command frame (format W1, spec/30_encoding.md R73): the payload that S_WRITE
transmits (R114), so the step it stands for is S_WRITE, with the frame's own bytes. -/

namespace Sys2Proof.Machine

/-- READ_RECORD_FRAME (R73, R114): `CC F0 00 00` is transmitted, first byte first; the slave's reply is read by the
following READ_BYTE, READ_BLOCK, READ_BYTE. -/
def execReadRecordFrame (s : State) : Host.Outcome State Fault Refusal :=
  if s.st = .write then .next (if s.stalled then s else s.transmitFrame (encode .readRecordFrame))
  else .fault (.requestNotIssued s.st)

end Sys2Proof.Machine
end

