-- ==== Sys2Proof/Machine/HostCommands.lean ====
section
/-! DEFINITION. The meanings of the four host commands (format HC), each one atomic step taken by the issuing context
(R10). They are available in every state of the sequencer (R163) and to every context (R195). -/

namespace Sys2Proof.Machine

/-- ATTACH (R110): accepted if `BUSY = 0`, otherwise held. It reads and clears neither `ID_VALID` nor `ID`, and its answer
is given later, by `S_EXIT`. -/
def execAttach (s : State) : Host.Outcome State Fault Refusal :=
  .next (if s.busy then s.holdAttach else s.acceptAttach)

/-- DETACH (R160): clears the identity, whatever it is, and completes. It does not abort a running attach (R163). -/
def execDetach (s : State) : Host.Outcome State Fault Refusal :=
  .next (s.clearIdentity.respond s.issuer .done)

/-- HAS_IDENTITY (R161): answers `ID_VALID`. -/
def execHasIdentity (s : State) : Host.Outcome State Fault Refusal :=
  .next (s.respond s.issuer (.bit s.idValid))

/-- CLASSIFICATION (R162): answers `CLS(ID)`, or 0 where no identity is stored. -/
def execClassification (s : State) : Host.Outcome State Fault Refusal :=
  .next (s.respond s.issuer (.code s.classification))

end Sys2Proof.Machine
end

