-- ==== Sys2Proof/Machine/Dispatch.lean ====
section
/-! DEFINITION. One arm per constructor of Instr. -/

namespace Sys2Proof.Machine

def exec (i : Instr) (s : State) : Host.Outcome State Fault Refusal :=
  match i with
  | .attach => Sys2Proof.Machine.execAttach s
  | .detach => Sys2Proof.Machine.execDetach s
  | .hasIdentity => Sys2Proof.Machine.execHasIdentity s
  | .classification => Sys2Proof.Machine.execClassification s
  | .lock => Sys2Proof.Machine.execLock s
  | .reset => Sys2Proof.Machine.execReset s
  | .write => Sys2Proof.Machine.execWrite s
  | .readByte => Sys2Proof.Machine.execReadByte s
  | .readBlock => Sys2Proof.Machine.execReadBlock s
  | .unlock => Sys2Proof.Machine.execUnlock s
  | .readRecordFrame => Sys2Proof.Machine.execReadRecordFrame s

end Sys2Proof.Machine
end

