-- ==== Sys2Proof/Machine/Sequencer.lean ====
section
/-! DEFINITION. The three sequencer steps that issue no bus request (spec/41_attach_sequencer.md R112, R118, R119). They
cannot wait (R224). -/

namespace Sys2Proof.Machine

/-- S_CHECK (R112): an empty budget ends the attach with RETRIES_EXHAUSTED, otherwise an attempt starts. `RETRY` is not
changed. -/
def seqCheck (s : State) : State :=
  if s.budgetEmpty then s.takeFault .retriesExhausted else s.goto .reset

/-- S_PARSE (R118): a wrong magic ends the attach with INVALID_MAGIC, and is not retried. -/
def seqParse (s : State) : State :=
  if s.magicOk then s.goto .store else s.takeFault .invalidMagic

/-- S_STORE (R119): the identifier is stored in one atomic write, the result is OK. -/
def seqStore (s : State) : State :=
  { s.storeIdentity (identifier s.cfg s.record) with res := Err.ok.code, st := .exit }

/-- The sequencer's step in a state that issues no bus request; while idle it has none (R25). -/
def seqInternal (s : State) : State :=
  match s.st with
  | .idle => s
  | .lock => s
  | .check => seqCheck s
  | .reset => s
  | .write => s
  | .cmdCrc => s
  | .block => s
  | .dataCrc => s
  | .parse => seqParse s
  | .store => seqStore s
  | .exit => s

end Sys2Proof.Machine
end

