-- ==== Sys2Proof/Machine/Fetch.lean ====
section
/-! DEFINITION. What one step does around an instruction: whose turn it is, which encoded word stands on which port, what
the turn uses up, and the steps that carry no instruction (R10, R110, R112, R118, R119, R212). -/

namespace Sys2Proof.Machine

/-- Whose turn it is: the head of the schedule, and the sequencer's after its end. -/
def State.turn (s : State) : Turn :=
  match s.turns with
  | [] => .seq
  | t :: _ => t

/-- The context waits for the answer of its ATTACH, which is being served (R110); it issues nothing meanwhile (R214 c). -/
def State.waits (s : State) (ctx : Nat) : Bool := s.busy && decide (s.server = ctx)

/-- A context's next command not yet issued. -/
def nextCode : List (Nat × HcCode) → Nat → Option HcCode
  | [], _ => none
  | (x, c) :: ps, ctx => if x = ctx then some c else nextCode ps ctx

/-- The programs after a context has issued its next command. -/
def dropCode : List (Nat × HcCode) → Nat → List (Nat × HcCode)
  | [], _ => []
  | (x, c) :: ps, ctx => if x = ctx then ps else (x, c) :: dropCode ps ctx

/-- The code a context presents on the command port: its held ATTACH, else its next command; none while it waits for an
answer or when its program is over (log entry 19). -/
def State.hostCode (s : State) (ctx : Nat) : Option HcCode :=
  if s.waits ctx then none
  else if ctx ∈ s.held then some 0
  else nextCode s.programs ctx

/-- The bus request that a sequencer state issues, by its code on the bus port (R25, R72). -/
def requestCode : SeqState → Option Code3
  | .idle => none
  | .lock => some 0b000
  | .check => none
  | .reset => some 0b001
  | .write => some 0b010
  | .cmdCrc => some 0b011
  | .block => some 0b100
  | .dataCrc => some 0b011
  | .parse => none
  | .store => none
  | .exit => some 0b101

/-- The encoded instruction of this step, with its format; none in a step that carries no instruction. -/
def fetch (s : State) : Option (Format × List Byte) :=
  match s.turn with
  | .host ctx => (s.hostCode ctx).map (fun c => (.hc, [c.setWidth 8]))
  | .seq => (requestCode s.st).map (fun c => (.br, [c.setWidth 8]))
  | .frame => if s.st = .write then some (.w1, s.cmd) else none
  | .otherTakes => none
  | .otherReleases => none
  | .busStalls => none
  | .busResumes => none
  | .reset => none

/-- A context puts its command on the command port: it is the issuer, and a command taken from its program is used up. -/
def State.present (s : State) (ctx : Nat) : State :=
  match s.hostCode ctx with
  | none => s
  | some _ =>
    { s with issuer := ctx, programs := if ctx ∈ s.held then s.programs else dropCode s.programs ctx }

/-- The turn's place in the schedule is used up. -/
def State.endTurn (s : State) : State := { s with turns := s.turns.tail }

/-- What the turn uses up before its effect: its place in the schedule, and a host context's command. -/
def advance (s : State) : State :=
  match s.turn with
  | .host ctx => s.endTurn.present ctx
  | .seq => s.endTurn
  | .frame => s.endTurn
  | .otherTakes => s.endTurn
  | .otherReleases => s.endTurn
  | .busStalls => s.endTurn
  | .busResumes => s.endTurn
  | .reset => s.endTurn

/-- The effect of a turn that carries no instruction. -/
def internal (t : Turn) (s : State) : State :=
  match t with
  | .host _ => s
  | .seq => seqInternal s
  | .frame => s
  | .otherTakes => s.otherTakesBus
  | .otherReleases => s.otherReleasesBus
  | .busStalls => s.busStalls
  | .busResumes => s.busResumes
  | .reset => s.resetEvent

/-! ## Placing one instruction where the next step fetches it (log entry 10) -/

/-- A context that neither waits nor is held. -/
def State.freshContext (s : State) : Nat := s.held.foldr max s.server + 1

/-- A host command, as the next one of a free context whose turn it is. -/
def State.presentCommand (s : State) (op : HcCode) : State :=
  { s with programs := (s.freshContext, op) :: s.programs, turns := .host s.freshContext :: s.turns }

/-- The sequencer in the middle of an attach, in a state that issues a request: it is busy, in an attempt its budget is not
empty, and the bus master answers. -/
def State.inAttach (s : State) (x : SeqState) (t : Turn) : State :=
  { s with
    st := x
    busy := true
    stalled := false
    retry := if s.retry = 0 then retryBudget else s.retry
    turns := t :: s.turns }

/-- The state whose very next step runs the instruction. A bus request is placed by putting the sequencer where it issues
that request, with an answer of the bus master ready where it needs one. -/
def State.presenting (s : State) (i : Instr) : State :=
  match i with
  | .attach => s.presentCommand 0
  | .detach => s.presentCommand 1
  | .hasIdentity => s.presentCommand 2
  | .classification => s.presentCommand 3
  | .lock => { s.inAttach .lock .seq with otherOwns := false }
  | .reset => { s.inAttach .reset .seq with presences := if s.presences = [] then [.present] else s.presences }
  | .write => s.inAttach .write .seq
  | .readByte =>
    { s.inAttach (if s.st = .dataCrc then .dataCrc else .cmdCrc) .seq with
      bytesIn := if s.bytesIn = [] then [0x8D] else s.bytesIn }
  | .readBlock =>
    { s.inAttach .block .seq with blocksIn := if s.blocksIn = [] then [Vector.replicate 128 0] else s.blocksIn }
  | .unlock => s.inAttach .exit .seq
  | .readRecordFrame => s.inAttach .write .frame

end Sys2Proof.Machine
end

