-- ==== Sys2Proof/Machine/Step.lean ====
section
/-! DEFINITION. One step of the machine (spec/00_scope.md R10): the agent whose turn it is takes one atomic step. -/

namespace Sys2Proof.Machine

/-- One step: the turn is used up, then the instruction on its port, if there is one, is decoded and run; a turn without
an instruction has its own effect. -/
def step (s : State) : Host.Outcome State Fault Refusal :=
  match fetch s with
  | none => .next (internal s.turn (advance s))
  | some (f, bytes) =>
    match decode f bytes with
    | .ok (i, _) => exec i (advance s)
    | .error e => .refused (.undecodable e)

/-- The state `s` with the instruction of a table word placed where the next step fetches it; `s` itself where the decoder
refuses the word. -/
def State.withFetchWord (s : State) (nbits w : Nat) : State :=
  match decodeTableWord nbits w with
  | some i => s.presenting i
  | none => s

end Sys2Proof.Machine
end

