-- ==== Sys2Proof/Safety.lean ====
section
/-! DEFINITION. What the statements speak of: the invariants of spec/10_state.md R37, quiescence (R225), the grammar of the
bus trace (R98), the legal codes on the ports (R33), the attempts of an attach (R125), and the transition table of ST
(R26). -/

namespace Sys2Proof.Machine

/-! ## The invariant (R37, R34, R144, R198) -/

/-- The states of a running attempt: an attempt begins when `S_CHECK` moves to `S_RESET` (R122). -/
def SeqState.inAttempt : SeqState → Bool
  | .idle => false
  | .lock => false
  | .check => false
  | .reset => true
  | .write => true
  | .cmdCrc => true
  | .block => true
  | .dataCrc => true
  | .parse => true
  | .store => true
  | .exit => false

/-- `BUSY = 0` exactly when `ST = S_IDLE` (R37 a). -/
abbrev State.busyIffNotIdle (s : State) : Prop := s.busy = false ↔ s.st = .idle

/-- `RETRY` is at most 5 while busy (R37 b, R27). -/
abbrev State.retryInBudget (s : State) : Prop := s.busy = true → s.retry.toNat ≤ 5

/-- `RETRY` is at least 1 during an attempt (R121). -/
abbrev State.retryLeftInAttempt (s : State) : Prop := s.st.inAttempt = true → s.retry ≠ 0#3

/-- In `S_LOCK` the whole budget is left: it was loaded at acceptance and no attempt has begun (R110, R122). -/
abbrev State.budgetFullAtLock (s : State) : Prop := s.st = .lock → s.retry = 5#3

/-- `RES` is 0, 4 or 5 in `S_EXIT` (R37 e). -/
abbrev State.resultLegal (s : State) : Prop := s.st = .exit → attachCodeWf s.res = true

/-- The record buffer has its canonical form. -/
abbrev State.recordWf (s : State) : Prop := s.record.wf = true

/-- The record is parsed only if its CRC matched (R144). -/
abbrev State.crcPassed (s : State) : Prop := s.st = .parse ∨ s.st = .store → s.recordCrcOk = true

/-- The identifier is stored only if the magic matched (R118). -/
abbrev State.magicPassed (s : State) : Prop := s.st = .store → s.magicOk = true

/-- While the block holds the lock no other user owns the bus (R64). -/
abbrev State.busExclusive (s : State) : Prop := s.holdsLock = true → s.otherOwns = false

/-- No context has two held commands, and the context being served has none (R198, R214 c). -/
abbrev State.commandsSingle (s : State) : Prop := s.held.Nodup ∧ (s.busy = true → s.server ∉ s.held)

/-- The invariant of the machine. -/
abbrev State.Inv (s : State) : Prop :=
  s.busyIffNotIdle ∧ s.retryInBudget ∧ s.retryLeftInAttempt ∧ s.budgetFullAtLock ∧ s.resultLegal ∧ s.recordWf ∧
    s.crcPassed ∧ s.magicPassed ∧ s.busExclusive ∧ s.commandsSingle

/-! ## Who may issue what (R91 to R96, R114) -/

/-- The sequencer states that issue an instruction of the bus or of the frame (the table's `issued_by`); a host command is
issued by a context, not by the sequencer. -/
def Instr.issuedIn : Instr → List SeqState
  | .attach => []
  | .detach => []
  | .hasIdentity => []
  | .classification => []
  | .lock => [.lock]
  | .reset => [.reset]
  | .write => [.write]
  | .readByte => [.cmdCrc, .dataCrc]
  | .readBlock => [.block]
  | .unlock => [.exit]
  | .readRecordFrame => [.write]

/-- The bus master can complete the request that the sequencer is about to issue: it answers, the lock is free for LOCK,
and an answer is ready for a request that needs one (R90, R91). -/
abbrev State.answerReady (s : State) : Prop :=
  s.stalled = false ∧ (s.st = .lock → s.otherOwns = false) ∧ (s.st = .reset → s.presences ≠ []) ∧
    (s.st = .cmdCrc ∨ s.st = .dataCrc → s.bytesIn ≠ []) ∧ (s.st = .block → s.blocksIn ≠ [])

/-! ## The end of a run (R225) -/

/-- Quiescent (R225): idle (so not busy and without the lock), no ATTACH served or held, and every context has issued all
commands of its program. A run is over exactly when it has reached such a state; the model's schedule has no part in it. -/
abbrev State.Quiescent (s : State) : Prop := s.st = .idle ∧ s.busy = false ∧ s.held = [] ∧ s.programs = []

/-- The sequencer waits for the lock or for an answer (R90, R111, R223): it stands where a request is issued, and the bus
master cannot complete that request now. -/
abbrev State.Waiting (s : State) : Prop := requestCode s.st ≠ none ∧ ¬s.answerReady

/-- The run from `s` is over after `n` steps (R225): it has reached a quiescent state. -/
def State.RunOver (s : State) (n : Nat) : Prop :=
  ∃ m ≤ n, ∃ t, Host.Core.run Sys2Proof.core m s = .next t ∧ t.Quiescent

/-- Stuck (R223, R225): what the sequencer waits for never comes, so it waits in every state of the run from here on. -/
def State.Stuck (s : State) : Prop :=
  ∀ (n : Nat) (t : State), Host.Core.run Sys2Proof.core n s = .next t → t.Waiting

/-! ## The ports (R33, R199) -/

/-- An answer the block may give: of ATTACH, one of the codes 0, 4 and 5. -/
def Answer.legal : Answer → Bool
  | .err c => attachCodeWf c
  | .done => true
  | .bit _ => true
  | .code _ => true

/-- Every answer, every diagnostic event and every request so far is one the block may emit. -/
abbrev State.portsLegal (s : State) : Prop :=
  (∀ a ∈ s.answers, a.2.legal = true) ∧ (∀ c ∈ s.diagTrace, diagCodeWf c = true) ∧
    (∀ r ∈ s.busTrace, r.wf = true)

/-! ## The grammar of the bus trace (R98, R64, R217) -/

/-- Where a bus trace stands: outside any bracket, or inside one after so many requests of the running attempt. -/
inductive BusPhase where
  /-- Before LOCK or after UNLOCK. -/
  | outside
  /-- After LOCK, before the first RESET. -/
  | locked
  | afterReset
  | afterWrite
  | afterEcho
  | afterBlock
  | afterPayload
deriving DecidableEq, Repr

/-- The next phase after one request; none if the grammar does not allow the request there. LOCK opens a bracket; inside
it an attempt goes RESET, WRITE, READ_BYTE, READ_BLOCK, READ_BYTE; a new attempt begins with RESET where an attempt can
have ended; UNLOCK closes the bracket. -/
def BusPhase.next : BusPhase → BusRequest → Option BusPhase
  | .outside, .lock => some .locked
  | .locked, .reset => some .afterReset
  | .afterReset, .reset => some .afterReset
  | .afterReset, .write _ => some .afterWrite
  | .afterWrite, .readByte => some .afterEcho
  | .afterEcho, .reset => some .afterReset
  | .afterEcho, .readBlock _ => some .afterBlock
  | .afterBlock, .readByte => some .afterPayload
  | .afterPayload, .reset => some .afterReset
  | .locked, .unlock => some .outside
  | .afterReset, .unlock => some .outside
  | .afterWrite, .unlock => some .outside
  | .afterEcho, .unlock => some .outside
  | .afterBlock, .unlock => some .outside
  | .afterPayload, .unlock => some .outside
  | _, _ => none

/-- The phase a trace ends in; none if the trace breaks the grammar. -/
def scanTrace : List BusRequest → BusPhase → Option BusPhase
  | [], p => some p
  | r :: rs, p => (p.next r).bind (scanTrace rs)

/-- The phases in which a sequencer state may stand. -/
def SeqState.phases : SeqState → List BusPhase
  | .idle => [.outside]
  | .lock => [.outside]
  | .check => [.locked, .afterReset, .afterEcho, .afterPayload]
  | .reset => [.locked, .afterReset, .afterEcho, .afterPayload]
  | .write => [.afterReset]
  | .cmdCrc => [.afterWrite]
  | .block => [.afterEcho]
  | .dataCrc => [.afterBlock]
  | .parse => [.afterPayload]
  | .store => [.afterPayload]
  | .exit => [.afterReset, .afterEcho, .afterPayload]

/-- The trace follows the grammar, and stands where the sequencer stands; before the first RESET of a bracket the whole
budget is left. -/
abbrev State.traceInPhase (s : State) : Prop :=
  ∃ p ∈ s.st.phases, scanTrace s.busTrace .outside = some p ∧ (p = .locked → s.retry = 5#3)

/-- The RESET requests since the last LOCK, so the attempts of the running attach, or of the last one (R122). -/
def resetsInBracket (trace : List BusRequest) : Nat :=
  trace.foldl (fun n r => if r = .lock then 0 else if r = .reset then n + 1 else n) 0

/-- Each attempt is paid for: in the bracket, the attempts made so far and the budget left make 5, counting the running
attempt on both sides (R27, R121, R122). -/
abbrev State.attemptsPaid (s : State) : Prop :=
  match s.st with
  | .idle | .lock => True
  | .check | .reset => resetsInBracket s.busTrace + s.retry.toNat = 5
  | .write | .cmdCrc | .block | .dataCrc | .parse | .store => resetsInBracket s.busTrace + s.retry.toNat = 6
  | .exit => 1 ≤ resetsInBracket s.busTrace ∧ resetsInBracket s.busTrace ≤ 5

/-! ## The transition table of ST (R26) -/

/-- The rows of R26 with their conditions: the sequencer may go from the state of `s` to `x`. The row `any to S_IDLE` of
the reset event is not among them. -/
abbrev State.mayGo (s : State) (x : SeqState) : Prop :=
  match s.st, x with
  | .idle, .lock => s.busy = false ∧ ∃ ctx, s.turn = .host ctx ∧ s.hostCode ctx = some 0#2
  | .lock, .check => s.stalled = false ∧ s.otherOwns = false
  | .check, .reset => s.retry ≠ 0#3
  | .check, .exit => s.retry = 0#3
  | .reset, .write => s.presences.head? = some .present
  | .reset, .check => s.presences.head? = some .absent
  | .write, .cmdCrc => True
  | .cmdCrc, .block => s.bytesIn.head? = some 0x8D#8
  | .cmdCrc, .check => ∃ b, s.bytesIn.head? = some b ∧ b ≠ 0x8D#8
  | .block, .dataCrc => True
  | .dataCrc, .parse => s.bytesIn.head? = some (crc8 s.record.bytes)
  | .dataCrc, .check => ∃ b, s.bytesIn.head? = some b ∧ b ≠ crc8 s.record.bytes
  | .parse, .store => magic s.record = 0xE54C21ED#32
  | .parse, .exit => magic s.record ≠ 0xE54C21ED#32
  | .store, .exit => True
  | .exit, .idle => True
  | _, _ => False

/-! ## The five faults (R180) -/

/-- The cause that R180 gives each fault kind, in the state before the step that raises it. -/
abbrev State.causes (s : State) : Err → Prop
  | .ok => False
  | .busResetFailure => s.st = .reset ∧ s.presences.head? = some .absent
  | .commandCrcMismatch => s.st = .cmdCrc ∧ ∃ b, s.bytesIn.head? = some b ∧ b ≠ 0x8D#8
  | .payloadCrcMismatch => s.st = .dataCrc ∧ ∃ b, s.bytesIn.head? = some b ∧ b ≠ crc8 s.record.bytes
  | .retriesExhausted => s.st = .check ∧ s.retry = 0#3
  | .invalidMagic => s.st = .parse ∧ magic s.record ≠ 0xE54C21ED#32

/-! ## The second form of CRC-8 that R140 gives -/

/-- One bit enters the register: `mix <- c[0] ^ b[i]; c <- c >> 1; if mix == 1 then c <- c ^ 0x8C`. -/
def crcSerialBit (c : Byte) (bit : Bool) : Byte :=
  if c.getLsbD 0 ^^ bit then (c >>> 1) ^^^ 0x8C else c >>> 1

/-- The bits of each byte enter least significant first. -/
def crcSerial (bytes : List Byte) : Byte :=
  bytes.foldl (fun c b => (List.range 8).foldl (fun c i => crcSerialBit c (b.getLsbD i)) c) 0x00

/-! ## The bytes the parser reads (R150) -/

/-- The eight offsets the parser reads, under a configuration. -/
def parserOffsets (c : Config) : List Nat :=
  [0, 1, 2, 3, c.offIdLow, c.offIdHigh, c.offIdHigh + 1, c.offIdHigh + 2]

/-! ## Attempts (R122, R125) -/

/-- The answers the bus gives in one attempt: presence, command-echo byte, record, payload byte (R125). An attempt that
faults early does not ask for the rest. -/
structure Attempt where
  p : Presence
  c1 : Byte
  r : Block
  c2 : Byte
deriving DecidableEq, Repr

/-- The attempt passes the presence test and both CRC checks (R125). -/
def Attempt.clean (a : Attempt) : Bool :=
  decide (a.p = .present) && decide (a.c1 = 0x8D#8) && decide (a.c2 = crc8 a.r.toList)

/-- The fault that an attempt which is not clean raises: the first failing test in the order presence, command-echo CRC,
payload CRC (R187). -/
def Attempt.fault (a : Attempt) : Err :=
  if a.p = .absent then .busResetFailure else if a.c1 ≠ 0x8D#8 then .commandCrcMismatch else .payloadCrcMismatch

/-- The bytes READ_BYTE asks for in the attempt. -/
def Attempt.bytesAsked (a : Attempt) : List Byte :=
  if a.p = .absent then [] else if a.c1 ≠ 0x8D#8 then [a.c1] else [a.c1, a.c2]

/-- The blocks READ_BLOCK asks for in the attempt. -/
def Attempt.blocksAsked (a : Attempt) : List Block :=
  if a.p = .absent then [] else if a.c1 ≠ 0x8D#8 then [] else [a.r]

end Sys2Proof.Machine
end

