-- ==== Sys2Proof/Certificates/Slice0/Obligations.lean ====
section
/-! DEFINITION. The statements for the provers. They come from the numbered rules of spec/; each docstring names the rule
it formalises. A statement whose conclusion is `exec i s = .next { s with … }` says the whole effect of the instruction:
what it writes, that it completes under its hypotheses on the state alone, and (by the record update) that nothing else
changes. -/

open Sys2Proof Sys2Proof.Machine

/-! ## Encodings (spec/30_encoding.md) -/

/-- R71, R72, R73: the codes and the frame, written out from the spec's tables, decode to their instructions. -/
def Obligations.SpecWordsDecode : Prop :=
  [decode .hc [0b00], decode .hc [0b01], decode .hc [0b10], decode .hc [0b11], decode .br [0b000], decode .br [0b001],
      decode .br [0b010], decode .br [0b011], decode .br [0b100], decode .br [0b101],
      decode .w1 [0xCC, 0xF0, 0x00, 0x00]] =
    [.ok (.attach, []), .ok (.detach, []), .ok (.hasIdentity, []), .ok (.classification, []), .ok (.lock, []),
      .ok (.reset, []), .ok (.write, []), .ok (.readByte, []), .ok (.readBlock, []), .ok (.unlock, []),
      .ok (.readRecordFrame, [])]

/-- Decoding is the inverse of encoding, in both directions: whatever bytes follow, an encoded instruction decodes to
itself in its own format and leaves them; and bytes that decode are the encoding of what they decode to, in the format of
that instruction. -/
def Obligations.DecodeEncodeAgree : Prop :=
  (∀ (i : Instr) (rest : List Byte), decode i.format (encode i ++ rest) = .ok (i, rest)) ∧
    (∀ (f : Format) (bytes rest : List Byte) (i : Instr),
      decode f bytes = .ok (i, rest) → f = i.format ∧ bytes = encode i ++ rest)

/-- R78: decoding a host command cannot fail. Every 2-bit code is a command, and two codes are two commands. -/
def Obligations.HostDecoderTotal : Prop :=
  (∀ (op : HcCode) (rest : List Byte), ∃ i : Instr, i.format = .hc ∧ decode .hc (op.setWidth 8 :: rest) = .ok (i, rest)) ∧
    (∀ op op' : HcCode, decodeHc op = decodeHc op' → op = op')

/-- R79: the reserved encodings have no meaning. BR codes 110 and 111 and every W1 frame but CC F0 00 00 are rejected by
name, and ERR codes 6 and 7 name no fault kind. -/
def Obligations.ReservedEncodingsRejected : Prop :=
  (∀ rest : List Byte, decode .br (6 :: rest) = .error (.reservedRequest 6) ∧
      decode .br (7 :: rest) = .error (.reservedRequest 7)) ∧
    (∀ (b0 b1 b2 b3 : Byte) (rest : List Byte), [b0, b1, b2, b3] ≠ [0xCC, 0xF0, 0x00, 0x00] →
      decode .w1 (b0 :: b1 :: b2 :: b3 :: rest) = .error (.unknownFrame b0 b1 b2 b3)) ∧
    Err.ofCode 6 = none ∧ Err.ofCode 7 = none

/-- R75: the codes of format ERR are 0 to 5 in the taxonomy's order, a code names the fault kind it is the code of, and
three kinds are transient and two permanent. -/
def Obligations.FaultCodesNumbered : Prop :=
  Err.code .ok = 0 ∧ Err.code .busResetFailure = 1 ∧ Err.code .commandCrcMismatch = 2 ∧
    Err.code .payloadCrcMismatch = 3 ∧ Err.code .retriesExhausted = 4 ∧ Err.code .invalidMagic = 5 ∧
    (∀ (c : Code3) (e : Err), Err.ofCode c = some e ↔ c = e.code) ∧
    [Err.ok, .busResetFailure, .commandCrcMismatch, .payloadCrcMismatch, .retriesExhausted, .invalidMagic].map errClass =
      [.success, .transient, .transient, .transient, .permanent, .permanent]

/-! ## Reset (spec/70_reset_and_hazards.md) -/

/-- R211 and R36: after reset there is no identity, the block is neither busy nor in an attach, it does not hold the bus
lock, HAS_IDENTITY answers 0, CLASSIFICATION answers 0, and the sequencer has no enabled step. (That the command port's context
is number 0 and that no answer was given before is the model's choice, log entry 6.) -/
def Obligations.ResetLeavesNoIdentity : Prop :=
  State.reset.identity = none ∧ State.reset.busy = false ∧ State.reset.st = .idle ∧ State.reset.holdsLock = false ∧
    State.reset.cmd = [0xCC, 0xF0, 0x00, 0x00] ∧
    exec .hasIdentity State.reset = .next { State.reset with answers := [(0, .bit false)] } ∧
    exec .classification State.reset = .next { State.reset with answers := [(0, .code 0)] } ∧
    step State.reset = .next State.reset

/-- R212: a reset at any moment abandons a running attach. The identity and BUSY are cleared and the sequencer is idle; an
UNLOCK appears on the bus trace if and only if the lock was held; nobody receives an answer; the configuration and what
the environment holds ready are untouched. (What the unspecified registers hold afterwards is the model's choice, log
entry 3, and is not stated. That the commands not yet issued stay with their contexts is the model's choice, log entry 7,
R212 being silent on them; that the answers held ready stay for later requests is its choice too, log entry 13.) -/
def Obligations.ResetEventAbandonsAttach : Prop :=
  ∀ s : State, s.turn = .reset →
    ∃ t, step s = .next t ∧ t.identity = none ∧ t.busy = false ∧ t.st = .idle ∧ t.answers = s.answers ∧
      t.diagTrace = s.diagTrace ∧
      t.busTrace = (if s.st = .idle ∨ s.st = .lock then s.busTrace else s.busTrace ++ [.unlock]) ∧
      t.cfg = s.cfg ∧ t.presences = s.presences ∧ t.bytesIn = s.bytesIn ∧ t.blocksIn = s.blocksIn ∧
      t.programs = s.programs ∧ t.turns = s.turns.tail

/-! ## Host commands (spec/41_attach_sequencer.md R110, spec/44_detach_queries.md) -/

/-- R110: an ATTACH is accepted when BUSY is 0. BUSY is set, RETRY is loaded with 5 and the sequencer goes to S_LOCK; the
issuing context waits for the answer (it is the one served, and its command is no longer held). -/
def Obligations.AttachAcceptedWhenIdle : Prop :=
  ∀ s : State, s.busy = false →
    exec .attach s =
      .next { s with busy := true, retry := 5#3, st := .lock, server := s.issuer, held := s.held.erase s.issuer }

/-- R110 (a): an ATTACH while BUSY is 1 is held, neither refused nor dropped, and changes nothing of the block. (The set of
held contexts is the model's own field, log entry 16.) -/
def Obligations.AttachHeldWhileBusy : Prop :=
  ∀ s : State, s.busy = true →
    ∃ t, exec .attach s = .next t ∧ s.issuer ∈ t.held ∧ (∀ ctx, ctx ∈ t.held ↔ ctx ∈ s.held ∨ ctx = s.issuer) ∧
      t = { s with held := t.held }

/-- R110 (a), R198 (b): a held ATTACH stays held through every step until it is accepted; acceptance makes its context the
one served. (That it also stays held through a reset event is the model's choice, log entry 7, R212 being silent on held
commands; the held contexts are log entry 16.) -/
def Obligations.HeldAttachNotDropped : Prop :=
  ∀ (s t : State) (ctx : Nat), ctx ∈ s.held → step s = .next t →
    ctx ∈ t.held ∨ (s.turn = .host ctx ∧ s.busy = false ∧ t.busy = true ∧ t.server = ctx ∧ t.st = .lock ∧ t.retry = 5#3)

/-- R110 (a): once BUSY is 0 again, the turn of a context with a held ATTACH accepts it. (Which context's turn comes first
is left to the schedule, log entries 4 and 16.) -/
def Obligations.HeldAttachAcceptedLater : Prop :=
  ∀ (s : State) (ctx : Nat), s.turn = .host ctx → ctx ∈ s.held → s.busy = false →
    step s =
      .next { s with turns := s.turns.tail, issuer := ctx, busy := true, retry := 5#3, st := .lock, server := ctx,
                     held := s.held.erase ctx }

/-- R160: DETACH clears the identity in every state, completes, and writes nothing else. -/
def Obligations.DetachClearsIdentity : Prop :=
  ∀ s : State,
    exec .detach s = .next { s with identity := none, answers := s.answers ++ [(s.issuer, .done)] }

/-- R161: HAS_IDENTITY answers one bit, 1 exactly when an identity is stored, in every state, and writes nothing else. -/
def Obligations.HasIdentityAnswersIdValid : Prop :=
  ∀ s : State,
    exec .hasIdentity s = .next { s with answers := s.answers ++ [(s.issuer, .bit s.identity.isSome)] }

/-- R162: CLASSIFICATION answers CLS(ID) when an identity is stored and 0 otherwise, and writes nothing else. -/
def Obligations.ClassificationAnswersCls : Prop :=
  (∀ (s : State) (v : Word32), s.identity = some v →
      exec .classification s = .next { s with answers := s.answers ++ [(s.issuer, .code (cls s.cfg v))] }) ∧
    (∀ s : State, s.identity = none →
      exec .classification s = .next { s with answers := s.answers ++ [(s.issuer, .code 0)] })

/-- R160 to R163: the frame of the three commands that complete at once, in every state of the sequencer. Nothing of a
running attach changes (BUSY, ST, RETRY, RES, CRCB, every byte of REC), no bus request and no diagnostic event appears,
and only DETACH may change the identity. -/
def Obligations.QueriesAndDetachFrame : Prop :=
  ∀ (i : Instr) (s t : State), i = .detach ∨ i = .hasIdentity ∨ i = .classification → exec i s = .next t →
    (i ≠ .detach → t.identity = s.identity) ∧ t.busy = s.busy ∧ t.st = s.st ∧ t.retry = s.retry ∧
      (∀ a, t.record.read a = s.record.read a) ∧ t.crcb = s.crcb ∧ t.res = s.res ∧ t.cfg = s.cfg ∧
      t.busTrace = s.busTrace ∧ t.diagTrace = s.diagTrace ∧ t.held = s.held ∧ t.server = s.server ∧
      t.presences = s.presences ∧ t.bytesIn = s.bytesIn ∧ t.blocksIn = s.blocksIn ∧ t.otherOwns = s.otherOwns ∧
      t.stalled = s.stalled ∧ (∃ a, t.answers = s.answers ++ [(s.issuer, a)])

/-- R110 (c), R59: the frame of ATTACH. It neither reads nor clears the identity, gives no answer yet, issues no bus
request and no diagnostic event, and leaves RES, CRCB and every byte of REC alone. -/
def Obligations.AttachFrame : Prop :=
  ∀ s t : State, exec .attach s = .next t →
    t.identity = s.identity ∧ (∀ a, t.record.read a = s.record.read a) ∧ t.crcb = s.crcb ∧ t.res = s.res ∧
      t.cfg = s.cfg ∧ t.answers = s.answers ∧ t.busTrace = s.busTrace ∧ t.diagTrace = s.diagTrace ∧
      t.presences = s.presences ∧ t.bytesIn = s.bytesIn ∧ t.blocksIn = s.blocksIn ∧
      (s.busy = true → t.st = s.st ∧ t.retry = s.retry ∧ t.busy = s.busy ∧ t.server = s.server)

/-! ## The sequencer steps that issue a request (spec/41_attach_sequencer.md, spec/40_bus_interface.md) -/

/-- R111: S_LOCK. LOCK completes when it is granted and the sequencer goes to S_CHECK; while another user owns the bus the
step waits and the block is unchanged. (That a wait is a step that answers the unchanged state is the model's form of a
step that is not enabled, log entry 12; that the other users' ownership is one bit is the model's choice, log entry 18.) -/
def Obligations.LockWaitsForGrant : Prop :=
  (∀ s : State, s.st = .lock → s.stalled = false → s.otherOwns = false →
      exec .lock s = .next { s with busTrace := s.busTrace ++ [.lock], st := .check }) ∧
    (∀ s : State, s.st = .lock → s.otherOwns = true → exec .lock s = .next s)

/-- R113: S_RESET. PRESENT moves the sequencer to S_WRITE; ABSENT raises BUS_RESET_FAILURE (diagnostic code 1), consumes
one retry and goes back to S_CHECK. (With RETRY = 0, which no run reaches, the decrement wraps: the model's choice, log entry
22, not the rule's.) -/
def Obligations.ResetTestsPresence : Prop :=
  (∀ (s : State) (ps : List Presence), s.st = .reset → s.stalled = false → s.presences = .present :: ps →
      exec .reset s = .next { s with presences := ps, busTrace := s.busTrace ++ [.reset], st := .write }) ∧
    (∀ (s : State) (ps : List Presence), s.st = .reset → s.stalled = false → s.presences = .absent :: ps →
      exec .reset s =
        .next { s with presences := ps, busTrace := s.busTrace ++ [.reset], diagTrace := s.diagTrace ++ [1#3],
                       retry := s.retry - 1#3, st := .check })

/-- R114: S_WRITE. The four bytes CC F0 00 00 are transmitted in that order, and the sequencer goes to S_CMDCRC. -/
def Obligations.WriteTransmitsFrame : Prop :=
  ∀ s : State, s.st = .write → s.stalled = false →
    exec .write s = .next { s with busTrace := s.busTrace ++ [.write [0xCC, 0xF0, 0x00, 0x00]], st := .cmdCrc }

/-- R73, R114: the W1 frame stands for the same step, with the frame's own bytes. (That the frame is also fetched as an
instruction of its own is the model's choice, log entry 5.) -/
def Obligations.FrameTransmitsItself : Prop :=
  ∀ s : State, s.st = .write → s.stalled = false →
    exec .readRecordFrame s =
      .next { s with busTrace := s.busTrace ++ [.write [0xCC, 0xF0, 0x00, 0x00]], st := .cmdCrc }

/-- R115, R142: S_CMDCRC. The byte read is latched; the sequencer goes to S_BLOCK exactly when it is 8D, and any other
byte raises COMMAND_CRC_MISMATCH (diagnostic code 2), consumes one retry and goes back to S_CHECK. (With RETRY = 0, which
no run reaches, the decrement wraps: the model's choice, log entry 22, not the rule's.) -/
def Obligations.EchoByteChecked : Prop :=
  ∀ (s : State) (b : Byte) (bs : List Byte), s.st = .cmdCrc → s.stalled = false → s.bytesIn = b :: bs →
    (b = 0x8D#8 →
      exec .readByte s =
        .next { s with bytesIn := bs, busTrace := s.busTrace ++ [.readByte], crcb := b, st := .block }) ∧
      (b ≠ 0x8D#8 →
        exec .readByte s =
          .next { s with bytesIn := bs, busTrace := s.busTrace ++ [.readByte], crcb := b,
                         diagTrace := s.diagTrace ++ [2#3], retry := s.retry - 1#3, st := .check })

/-- R116, R95, R54: S_BLOCK. All 128 bytes of REC are overwritten, REC[i] with the i-th byte received, nothing is checked,
and the sequencer goes to S_DATACRC; nothing else changes. (That the record is then in canonical form is a clause about
the model's own representation, log entry 3, not the rule's.) -/
def Obligations.BlockFillsRecord : Prop :=
  ∀ (s : State) (r : Block) (rs : List Block), s.st = .block → s.stalled = false → s.blocksIn = r :: rs →
    ∃ t, exec .readBlock s = .next t ∧ (∀ (i : Nat) (h : i < 128), t.record.read i = r[i]) ∧
      t.record.bytes = r.toList ∧ t.record.wf = true ∧
      t = { s with blocksIn := rs, busTrace := s.busTrace ++ [.readBlock 128], record := t.record, st := .dataCrc }

/-- R117, R143: S_DATACRC. The byte read is latched; the sequencer goes to S_PARSE exactly when it is the CRC of all 128
bytes of REC, and any other byte raises PAYLOAD_CRC_MISMATCH (diagnostic code 3), consumes one retry and goes back to
S_CHECK. The magic is not looked at. (With RETRY = 0, which no run reaches, the decrement wraps: the model's choice, log
entry 22, not the rule's.) -/
def Obligations.PayloadByteChecked : Prop :=
  ∀ (s : State) (b : Byte) (bs : List Byte), s.st = .dataCrc → s.stalled = false → s.bytesIn = b :: bs →
    (b = crc8 ((List.range 128).map s.record.read) →
      exec .readByte s =
        .next { s with bytesIn := bs, busTrace := s.busTrace ++ [.readByte], crcb := b, st := .parse }) ∧
      (b ≠ crc8 ((List.range 128).map s.record.read) →
        exec .readByte s =
          .next { s with bytesIn := bs, busTrace := s.busTrace ++ [.readByte], crcb := b,
                         diagTrace := s.diagTrace ++ [3#3], retry := s.retry - 1#3, st := .check })

/-- R120: S_EXIT. UNLOCK is issued, the ATTACH being served is answered with RES, BUSY is cleared and the sequencer is
idle; nothing else changes. -/
def Obligations.UnlockAnswersAttach : Prop :=
  ∀ s : State, s.st = .exit → s.stalled = false →
    exec .unlock s =
      .next { s with busTrace := s.busTrace ++ [.unlock], answers := s.answers ++ [(s.server, .err s.res)],
                     busy := false, st := .idle }

/-- R90, R223: a request whose answer has not arrived waits. In a state that issues the instruction, while the bus master
cannot complete it, the state is unchanged: there is no time-out. (That the wait is a step that changes nothing is the
model's form of a step that is not enabled, log entry 12.) -/
def Obligations.UnansweredRequestWaits : Prop :=
  ∀ (i : Instr) (s : State), s.st ∈ Instr.issuedIn i → ¬s.answerReady → exec i s = .next s

/-- R98: outside the states that issue it, a bus request or the frame has no effect in the spec, and the model stops on it
by name. (The stop is the model's choice, log entry 11; no step of the machine reaches it.) -/
def Obligations.RequestsOnlyWhereIssued : Prop :=
  ∀ (i : Instr) (s : State), i.format ≠ .hc → s.st ∉ Instr.issuedIn i → exec i s = .fault (.requestNotIssued s.st)

/-- R91 to R96: the frame of the bus requests and of the command frame. Each leaves the identity, the configuration and the
commands of the contexts alone; only UNLOCK answers and clears BUSY; only READ_BYTE writes CRCB; every byte of REC is
unchanged except by READ_BLOCK; none writes RES; RETRY changes only with a diagnostic event; and at most the request's own
answer is taken from the bus master. -/
def Obligations.BusRequestFrame : Prop :=
  ∀ (i : Instr) (s t : State), i.format ≠ .hc → exec i s = .next t →
    t.identity = s.identity ∧ t.cfg = s.cfg ∧ t.programs = s.programs ∧ t.issuer = s.issuer ∧ t.server = s.server ∧
      t.held = s.held ∧ t.otherOwns = s.otherOwns ∧ t.stalled = s.stalled ∧ t.turns = s.turns ∧ t.res = s.res ∧
      (i ≠ .unlock → t.busy = s.busy ∧ t.answers = s.answers) ∧ (i ≠ .readByte → t.crcb = s.crcb) ∧
      (i ≠ .readBlock → (∀ a, t.record.read a = s.record.read a) ∧ t.blocksIn = s.blocksIn) ∧
      (i ≠ .reset → t.presences = s.presences) ∧ (i ≠ .readByte → t.bytesIn = s.bytesIn) ∧
      (t.diagTrace = s.diagTrace → t.retry = s.retry) ∧ (i ≠ .reset → i ≠ .readByte → t.diagTrace = s.diagTrace)

/-! ## The sequencer steps that issue no request -/

/-- R112: S_CHECK. With an empty budget it emits RETRIES_EXHAUSTED, latches 4 and goes to S_EXIT; otherwise it goes to
S_RESET. RETRY and the identity are untouched. -/
def Obligations.CheckTestsBudget : Prop :=
  ∀ s : State, s.turn = .seq → s.st = .check →
    (s.retry = 0#3 →
      step s = .next { s with turns := s.turns.tail, diagTrace := s.diagTrace ++ [4#3], res := 4#3, st := .exit }) ∧
      (s.retry ≠ 0#3 → step s = .next { s with turns := s.turns.tail, st := .reset })

/-- R118: S_PARSE. A magic other than E54C21ED emits INVALID_MAGIC, latches 5 and goes to S_EXIT, without consuming a
retry; the right magic goes to S_STORE. -/
def Obligations.ParseTestsMagic : Prop :=
  ∀ s : State, s.turn = .seq → s.st = .parse →
    (s.record.read 3 ++ s.record.read 2 ++ s.record.read 1 ++ s.record.read 0 ≠ 0xE54C21ED#32 →
      step s = .next { s with turns := s.turns.tail, diagTrace := s.diagTrace ++ [5#3], res := 5#3, st := .exit }) ∧
      (s.record.read 3 ++ s.record.read 2 ++ s.record.read 1 ++ s.record.read 0 = 0xE54C21ED#32 →
        step s = .next { s with turns := s.turns.tail, st := .store })

/-- R119, R154: S_STORE. The identifier assembled from the record is stored in one step, the result is OK (0), and the
sequencer goes to S_EXIT. (The byte order of the 24-bit field is the spec's own decision D7, log entry 8.) -/
def Obligations.StoreWritesIdentity : Prop :=
  ∀ s : State, s.turn = .seq → s.st = .store →
    step s =
      .next { s with
        turns := s.turns.tail
        identity := some (s.record.read (s.cfg.offIdHigh + 2) ++ s.record.read (s.cfg.offIdHigh + 1) ++
          s.record.read s.cfg.offIdHigh ++ s.record.read s.cfg.offIdLow)
        res := 0#3
        st := .exit }

/-! ## CRC-8 (spec/42_crc8_validator.md) -/

/-- R140: the bit-serial form the rule calls equivalent is equal to `crc8` on every sequence of bytes. -/
def Obligations.CrcEqualsBitSerialForm : Prop :=
  ∀ bytes : List Byte, crc8 bytes = crcSerial bytes

/-- R141 (b): `crc8` is linear over exclusive OR on sequences of equal length. -/
def Obligations.CrcLinear : Prop :=
  ∀ xs ys : List Byte, xs.length = ys.length → crc8 (List.zipWith (· ^^^ ·) xs ys) = crc8 xs ^^^ crc8 ys

/-- R141 (c), (d), (e): leading zero bytes do not change the CRC; a sequence followed by its CRC has CRC 0; and every byte
is the CRC of some sequence. -/
def Obligations.CrcZeroAndOntoProperties : Prop :=
  (∀ (n : Nat) (bytes : List Byte), crc8 (List.replicate n 0 ++ bytes) = crc8 bytes) ∧
    (∀ bytes : List Byte, crc8 (bytes ++ [crc8 bytes]) = 0) ∧ (∀ b : Byte, ∃ bytes : List Byte, crc8 bytes = b)

/-- R142: the command-echo reference is the constant 8D, whatever the state; the registers on the way are 74, 99, 8D; and
the frame's first byte is not covered. -/
def Obligations.EchoReferenceIsConstant : Prop :=
  (∀ s : State, s.echoCrc = 0x8D#8) ∧ crc8 [0xF0] = 0x74 ∧ crc8 [0xF0, 0x00] = 0x99 ∧ crc8 [0xF0, 0x00, 0x00] = 0x8D#8 ∧
    crc8 [0xCC, 0xF0, 0x00, 0x00] = 0xA6

/-! ## The record parser (spec/43_record_parser.md) -/

/-- R151: the magic is right exactly when the first four bytes are ED 21 4C E5, in that order. -/
def Obligations.MagicIsFourBytes : Prop :=
  ∀ m : Memory, magic m = 0xE54C21ED#32 ↔ m.read 0 = 0xED ∧ m.read 1 = 0x21 ∧ m.read 2 = 0x4C ∧ m.read 3 = 0xE5

/-- R154: `id_low | (id_high << 8)` is the concatenation of the four bytes, no bit is lost, and every 32-bit value is the
identifier of some record with the right magic. (The byte order of the 24-bit field is the spec's own decision D7, log
entry 8.) -/
def Obligations.IdentifierAssembled : Prop :=
  (∀ (c : Config) (m : Memory),
      identifier c m =
        m.read (c.offIdHigh + 2) ++ m.read (c.offIdHigh + 1) ++ m.read c.offIdHigh ++ m.read c.offIdLow) ∧
    (∀ (c : Config) (v : Word32), ∃ r : Block, identifier c (Memory.ofBlock r) = v ∧
      magic (Memory.ofBlock r) = 0xE54C21ED#32)

/-- R150, R155: the eight offsets lie inside the record, and the padding is never interpreted. Two records that agree on
the eight bytes have the same magic and the same identifier. -/
def Obligations.PaddingNotInterpreted : Prop :=
  ∀ c : Config, (∀ a ∈ parserOffsets c, a < 128) ∧ (parserOffsets c).Nodup ∧
    (∀ m m' : Memory, (∀ a ∈ parserOffsets c, m.read a = m'.read a) →
      magic m = magic m' ∧ identifier c m = identifier c m')

/-! ## The classification ROM (spec/45_classification_rom.md) -/

/-- R170, R171, R172, R174: in every configuration CLSROM has 11 rows, the three known identifiers have their codes, each of the eight rows of
the configuration gives its own value, and an identifier that is no key is classified 0. -/
def Obligations.ClassificationTable : Prop :=
  ∀ c : Config,
    (clsRows c).length = 11 ∧ cls c 0x10139465 = 0x00030000 ∧ cls c 0xAACAACAA = 0x00040000 ∧
    cls c 0x10139462 = 0x00060000 ∧
    (∀ row ∈ c.tableRest, cls c row.1 = row.2) ∧
    (∀ v : Word32, v ≠ 0x10139465 → v ≠ 0xAACAACAA → v ≠ 0x10139462 → (∀ row ∈ c.tableRest, row.1 ≠ v) → cls c v = 0)

/-- R176: the result does not depend on any order of the rows. -/
def Obligations.ClassificationOrderFree : Prop :=
  ∀ (c : Config) (rows : List Row), rows.Perm (clsRows c) → ∀ v : Word32, lookupRow rows v = cls c v

/-! ## One step of the machine (spec/00_scope.md R10) -/

/-- R10, R81: a step runs the decoded instruction: when the bytes presented in this step decode to `i`, the step is `exec i`
after the turn has been used up. Using it up takes the turn from the schedule. The turn of a context that neither waits nor
holds an ATTACH also makes it the issuer and takes its next command, which is the first entry of that context among the
commands not yet issued: exactly that entry is removed, and all others keep their order. A held ATTACH is presented again
without taking a command. A context that waits for an answer, or has no command left, only uses up its turn. Nothing else
changes. (The schedule is log entry 4, the contexts' commands log entry 19, the held ATTACH log entry 16.) -/
def Obligations.StepRunsDecodedInstruction : Prop :=
  (∀ (s : State) (f : Format) (bytes rest : List Byte) (i : Instr),
      fetch s = some (f, bytes) → decode f bytes = .ok (i, rest) → step s = exec i (advance s)) ∧
    (∀ s : State, (∀ ctx, s.turn ≠ .host ctx) → advance s = { s with turns := s.turns.tail }) ∧
    (∀ (s : State) (ctx : Nat) (op : HcCode) (before after : List (Nat × HcCode)), s.turn = .host ctx →
      ¬(s.busy = true ∧ s.server = ctx) → ctx ∉ s.held → s.programs = before ++ (ctx, op) :: after →
      (∀ e ∈ before, e.1 ≠ ctx) →
      advance s = { s with turns := s.turns.tail, issuer := ctx, programs := before ++ after }) ∧
    (∀ (s : State) (ctx : Nat), s.turn = .host ctx → ¬(s.busy = true ∧ s.server = ctx) → ctx ∈ s.held →
      advance s = { s with turns := s.turns.tail, issuer := ctx }) ∧
    (∀ (s : State) (ctx : Nat), s.turn = .host ctx →
      (s.busy = true ∧ s.server = ctx) ∨ (ctx ∉ s.held ∧ ∀ e ∈ s.programs, e.1 ≠ ctx) →
      advance s = { s with turns := s.turns.tail }) ∧
    (∀ (s : State) (ctx : Nat), s.turn = .host ctx → s.hostCode ctx ≠ none →
      advance s =
        { s with turns := s.turns.tail, issuer := ctx,
                 programs := if ctx ∈ s.held then s.programs else dropCode s.programs ctx })

/-- R10, R81, R110: what stands on the ports. A context that waits for the answer of its ATTACH presents nothing; else a
context with a held ATTACH presents that one (code 0); else it presents its next command, the first entry of that context
among the commands not yet issued; with no entry it presents nothing, and a turn that presents nothing only passes. On the
sequencer's turn the request of its state stands on the bus port, and a state that issues no request presents nothing. (The
turns are log entry 4, the contexts' commands log entry 19, the held ATTACH log entry 16.) -/
def Obligations.FetchPresentsCommandOrRequest : Prop :=
  (∀ (s : State) (ctx : Nat), s.turn = .host ctx → fetch s = (s.hostCode ctx).map fun op => (.hc, [op.setWidth 8])) ∧
    (∀ (s : State) (ctx : Nat), ¬(s.busy = true ∧ s.server = ctx) → ctx ∈ s.held →
      s.hostCode ctx = some 0#2 ∧ (s.turn = .host ctx → fetch s = some (.hc, [0b00]))) ∧
    (∀ (s : State) (ctx : Nat) (op : HcCode) (before after : List (Nat × HcCode)), ¬(s.busy = true ∧ s.server = ctx) →
      ctx ∉ s.held → s.programs = before ++ (ctx, op) :: after → (∀ e ∈ before, e.1 ≠ ctx) →
      s.hostCode ctx = some op ∧ (s.turn = .host ctx → fetch s = some (.hc, [op.setWidth 8]))) ∧
    (∀ (s : State) (ctx : Nat), (s.busy = true ∧ s.server = ctx) ∨ (ctx ∉ s.held ∧ ∀ e ∈ s.programs, e.1 ≠ ctx) →
      s.hostCode ctx = none ∧
        (s.turn = .host ctx → fetch s = none ∧ step s = .next { s with turns := s.turns.tail })) ∧
    (∀ s : State, s.turn = .seq →
      match s.st with
      | .idle | .check | .parse | .store => fetch s = none
      | .lock => fetch s = some (.br, [0b000])
      | .reset => fetch s = some (.br, [0b001])
      | .write => fetch s = some (.br, [0b010])
      | .cmdCrc | .dataCrc => fetch s = some (.br, [0b011])
      | .block => fetch s = some (.br, [0b100])
      | .exit => fetch s = some (.br, [0b101]))

/-- R190, R225: nothing stops the machine. From every state a step answers a next state: a fault is an ordinary outcome of
a step, and a wait is a step that changes nothing (log entry 12). -/
def Obligations.StepAlwaysAnswersNext : Prop :=
  ∀ s : State, ∃ t, step s = .next t

/-- R62, R57: the block issues at most one request in a step, with the payload its format fixes, and never takes back what
is on the bus trace, on the diagnostic port or among the answers. -/
def Obligations.OneRequestPerStep : Prop :=
  ∀ s t : State, step s = .next t →
    (t.busTrace = s.busTrace ∨ ∃ r : BusRequest, t.busTrace = s.busTrace ++ [r] ∧ r.wf = true) ∧
      (t.diagTrace = s.diagTrace ∨ ∃ c, t.diagTrace = s.diagTrace ++ [c]) ∧
      (t.answers = s.answers ∨ ∃ a, t.answers = s.answers ++ [a])

/-- R33, R175: no step writes the configuration, so CLSROM and the two offsets never change. -/
def Obligations.ConfigurationNeverWritten : Prop :=
  ∀ s t : State, step s = .next t → t.cfg = s.cfg

/-! ## The invariant and what it gives (spec/10_state.md R26, R37) -/

/-- R37: the invariant holds after reset, and so do the other properties that every step keeps. (The record's canonical form
and the empty traces after reset are the model's choice, log entries 3 and 6.) -/
def Obligations.InvariantAtReset : Prop :=
  State.reset.Inv ∧ State.reset.traceInPhase ∧ State.reset.attemptsPaid ∧ State.reset.portsLegal

/-- R37, R34, R64, R144: every step keeps the invariant: BUSY is 0 exactly in S_IDLE; RETRY is at most 5 while busy and at
least 1 in an attempt, and 5 in S_LOCK; RES is 0, 4 or 5 in S_EXIT; the record buffer is in canonical form; a record is parsed only after
its CRC matched and stored from only after its magic matched; nobody else owns the bus while the block holds it; and no
context has more than one command outstanding. (Three clauses rest on the model's choices: the canonical form of the record
on log entry 3, that nobody else owns the bus, which R64 and R216 make a duty of the environment, on log entry 18, and the
contexts' single commands on log entries 16 and 19.) -/
def Obligations.StepKeepsInvariant : Prop :=
  ∀ s t : State, s.Inv → step s = .next t → t.Inv

/-- R26: the complete transition relation of ST. In a state that meets the invariant a step leaves ST alone or moves it
along a row of the table whose condition holds, or the reset event makes it S_IDLE. -/
def Obligations.TransitionTableComplete : Prop :=
  ∀ s t : State, s.Inv → step s = .next t →
    t.st = s.st ∨ s.mayGo t.st ∨ (s.turn = .reset ∧ t.st = .idle)

/-- R98, R64, R217: the bus discipline. If the trace so far follows the grammar (every RESET, WRITE, READ_BYTE and
READ_BLOCK between a LOCK and its UNLOCK, and inside a bracket only prefixes of RESET, WRITE, READ_BYTE, READ_BLOCK,
READ_BYTE) and stands where the sequencer stands, so it does after every step. -/
def Obligations.BusTraceFollowsGrammar : Prop :=
  ∀ s t : State, s.Inv → s.traceInPhase → step s = .next t → t.traceInPhase

/-- R27, R122, R123: an attach makes at most five attempts, whatever the bus answers and however the agents interleave. In
the bracket the RESET requests and the budget left make 5 (6 while an attempt runs that has issued its RESET), so S_EXIT is
reached after 1 to 5 of them; every step keeps this. -/
def Obligations.AttemptsStayPaid : Prop :=
  ∀ s t : State, s.Inv → s.attemptsPaid → step s = .next t → t.attemptsPaid

/-- R33, R199: the ports only ever carry legal codes: an ATTACH answer is 0, 4 or 5, a diagnostic event 1 to 5, and a
request has the payload its format fixes. -/
def Obligations.PortsStayLegal : Prop :=
  ∀ s t : State, s.Inv → s.portsLegal → step s = .next t → t.portsLegal

/-- R21, R37 (d): who writes the identity. A step that changes it is the reset event, a DETACH, or an S_STORE, and then the
record's CRC byte matched, its magic is E54C21ED, and the identity is the identifier of that record. -/
def Obligations.IdentityWriters : Prop :=
  ∀ s t : State, s.Inv → step s = .next t →
    t.identity = s.identity ∨ (t.identity = none ∧ s.turn = .reset) ∨
      (t.identity = none ∧ ∃ ctx, s.turn = .host ctx ∧ s.hostCode ctx = some 1#2) ∨
      (s.turn = .seq ∧ s.st = .store ∧ s.crcb = crc8 s.record.bytes ∧ magic s.record = 0xE54C21ED#32 ∧
        t.identity = some (identifier s.cfg s.record))

/-- R180, R121, R188, R189: the five faults. A step emits a diagnostic event only for the cause of one of the five kinds,
and the sequencer's step emits it whenever it meets that cause while the bus master answers. Then BUSY is 1 and stays 1,
the identity, the record and the answers are untouched, the lock is held, and the entry is that of the kind's class: a
transient fault takes one from RETRY (which was not 0) and goes to S_CHECK, a permanent one latches its code in RES and
goes to S_EXIT without touching RETRY. -/
def Obligations.FaultsAreTheFive : Prop :=
  (∀ s t : State, s.Inv → step s = .next t → t.diagTrace ≠ s.diagTrace →
      ∃ e : Err, s.causes e ∧ t.diagTrace = s.diagTrace ++ [e.code] ∧ s.busy = true ∧ t.busy = true ∧
        t.identity = s.identity ∧ (∀ a, t.record.read a = s.record.read a) ∧ t.answers = s.answers ∧
        s.holdsLock = true ∧ t.holdsLock = true ∧
        match errClass e with
        | .success => False
        | .transient => s.retry ≠ 0#3 ∧ t.retry = s.retry - 1#3 ∧ t.res = s.res ∧ t.st = .check
        | .permanent => t.retry = s.retry ∧ t.res = e.code ∧ t.st = .exit) ∧
    (∀ (s : State) (e : Err), s.turn = .seq → s.stalled = false → s.causes e →
      ∃ t, step s = .next t ∧ t.diagTrace = s.diagTrace ++ [e.code])

/-- R27: the budget. Except at the reset event (where RETRY is unspecified, log entry 3), RETRY changes only by being loaded with 5 when an ATTACH is accepted, or by
being decremented by exactly one, from at least 1, together with a transient diagnostic event. -/
def Obligations.BudgetOnlyLoadedOrDecremented : Prop :=
  ∀ s t : State, s.Inv → step s = .next t → s.turn ≠ .reset →
    t.retry = s.retry ∨ (s.busy = false ∧ t.busy = true ∧ t.retry = 5#3) ∨
      (s.retry.toNat = t.retry.toNat + 1 ∧ t.st = .check ∧ ∃ c : Code3, t.diagTrace = s.diagTrace ++ [c] ∧ 1 ≤ c.toNat ∧ c.toNat ≤ 3)

/-- R225: a quiescent state is the end of a run: idle, nothing served or held, every program issued. A step that is not the
reset event then changes at most the schedule, the bus owned by others and whether the bus master answers; a reset event
leaves the state quiescent; so over any number of steps, whatever is still scheduled, the observables stay what they are and
every state reached is quiescent. Once the schedule is over as well nothing changes at all (the turns are log entry 4, the
owner bit log entry 18). -/
def Obligations.QuiescentStateStays : Prop :=
  (∀ s : State, s.Quiescent → s.turn ≠ .reset →
      ∃ t, step s = .next t ∧
        t = { s with turns := s.turns.tail, otherOwns := t.otherOwns, stalled := t.stalled }) ∧
    (∀ (s t : State) (n : Nat), s.Quiescent → Host.Core.run Sys2Proof.core n s = .next t →
      t.Quiescent ∧ t.answers = s.answers ∧ t.busTrace = s.busTrace ∧ t.diagTrace = s.diagTrace) ∧
    (∀ (s : State) (n : Nat), s.Quiescent → s.turns = [] → Host.Core.run Sys2Proof.core n s = .next s)

/-- R223, R225, R226: a waiting sequencer. Only the grant of the lock, an answer or the reset event ends a wait: any other
step, a query, a DETACH or another ATTACH of a host among them, leaves the sequencer waiting where it is, with BUSY = 1, and
nothing appears on the bus or on the diagnostic port. So if none of these is scheduled the sequencer is stuck: no time-out,
no fault. A stuck run stays stuck, and no state of it is quiescent, so it is never over. (The turns are log entry 4; that a
wait is a step that changes nothing is log entry 12; the owner bit is log entry 18.) -/
def Obligations.StuckStateStays : Prop :=
  (∀ s t : State, s.busy = true → s.Waiting → step s = .next t → s.turn ≠ .reset → s.turn ≠ .busResumes →
      s.turn ≠ .otherReleases →
      t.Waiting ∧ t.busy = true ∧ t.st = s.st ∧ t.retry = s.retry ∧ t.server = s.server ∧ t.busTrace = s.busTrace ∧
        t.diagTrace = s.diagTrace) ∧
    (∀ s : State, s.busy = true → s.Waiting →
      (∀ u ∈ s.turns, u ≠ .reset ∧ u ≠ .busResumes ∧ u ≠ .otherReleases) → s.Stuck) ∧
    (∀ (s : State) (n : Nat), s.Waiting → s.turns = [] → Host.Core.run Sys2Proof.core n s = .next s) ∧
    (∀ (s t : State) (n : Nat), s.Stuck → Host.Core.run Sys2Proof.core n s = .next t → t.Stuck ∧ ¬t.Quiescent) ∧
    (∀ (s : State) (n : Nat), s.Stuck → ¬s.RunOver n)

/-! ## Whole attaches -/

/-- R123, R222: termination and its bounds. From S_LOCK with a budget of 5, the lock free and enough answers ready, the
sequencer alone reaches S_IDLE within 34 steps, with at most 27 bus requests and at most 6 diagnostic events, and exactly
one answer is given. (That nobody else moves meanwhile, an empty schedule, is a premise in the model's form, log entry 4.) -/
def Obligations.AttachTerminates : Prop :=
  ∀ s : State, s.st = .lock → s.retry = 5#3 → s.turns = [] → s.stalled = false → s.otherOwns = false →
    5 ≤ s.presences.length → 10 ≤ s.bytesIn.length → 5 ≤ s.blocksIn.length →
    ∃ n ≤ 34, ∃ t, Host.Core.run Sys2Proof.core n s = .next t ∧ t.st = .idle ∧ t.busy = false ∧
      t.busTrace.length ≤ s.busTrace.length + 27 ∧ t.diagTrace.length ≤ s.diagTrace.length + 6 ∧
      ∃ code, attachCodeWf code = true ∧ t.answers = s.answers ++ [(s.server, .err code)]

/-- R125, R122, R187, R191: the functional summary of an attach. Let nobody else move meanwhile (an empty schedule, log entry
4), let the lock be free (log entry 18) and the bus master answer (log entry 6), and let the bus answer five attempts (each giving what that
attempt asks for), whatever is ready after them. The ATTACH of an idle block is answered within 34 steps. If no attempt is
clean the answer is 4 and the identity is unchanged, with the five transient events and RETRIES_EXHAUSTED; if the first
clean attempt has a wrong magic the answer is 5 and the identity is unchanged; otherwise the answer is 0 and the identity
is the identifier of that attempt's record. The events before are the faults of the attempts before it, and the answers of
later attempts are never taken. -/
def Obligations.AttachFunctionalSummary : Prop :=
  ∀ (s : State) (as : List Attempt) (ps : List Presence) (bs : List Byte) (rs : List Block),
    s.busy = false → s.turns = [] → s.stalled = false → s.otherOwns = false → as.length = 5 →
    s.presences = as.map (·.p) ++ ps → s.bytesIn = as.flatMap Attempt.bytesAsked ++ bs →
    s.blocksIn = as.flatMap Attempt.blocksAsked ++ rs →
    ∃ u, exec .attach s = .next u ∧ ∃ n ≤ 34, ∃ t, Host.Core.run Sys2Proof.core n u = .next t ∧ t.st = .idle ∧
      t.busy = false ∧ t.cfg = s.cfg ∧
      (let failed := as.takeWhile (fun a => !a.clean)
       let later := (as.dropWhile (fun a => !a.clean)).tail
       t.presences = later.map (·.p) ++ ps ∧ t.bytesIn = later.flatMap Attempt.bytesAsked ++ bs ∧
         t.blocksIn = later.flatMap Attempt.blocksAsked ++ rs ∧
         match as.find? Attempt.clean with
         | none =>
           t.answers = s.answers ++ [(s.issuer, .err 4#3)] ∧ t.identity = s.identity ∧
             t.diagTrace = s.diagTrace ++ as.map (fun a => a.fault.code) ++ [4#3]
         | some a =>
           if magic (Memory.ofBlock a.r) = 0xE54C21ED#32 then
             t.answers = s.answers ++ [(s.issuer, .err 0#3)] ∧
               t.identity = some (identifier s.cfg (Memory.ofBlock a.r)) ∧
               t.diagTrace = s.diagTrace ++ failed.map (fun a => a.fault.code)
           else
             t.answers = s.answers ++ [(s.issuer, .err 5#3)] ∧ t.identity = s.identity ∧
               t.diagTrace = s.diagTrace ++ failed.map (fun a => a.fault.code) ++ [5#3])

/-- R24, R36: a register that nothing has written since reset is never read before it is written. Two idle states that
differ only in RETRY, REC, CRCB and RES give, over any number of steps and whatever the environment does, the same answers,
bus trace, diagnostic events and identity: the values the model names for these registers after reset (log entry 3) are
not observable. -/
def Obligations.HiddenRegistersNotObservable : Prop :=
  ∀ (s : State) (retry res : Code3) (record : Memory) (crcb : Byte) (n : Nat) (t t' : State),
    s.st = .idle → s.busy = false → Host.Core.run Sys2Proof.core n s = .next t →
    Host.Core.run Sys2Proof.core n { s with retry := retry, res := res, record := record, crcb := crcb } = .next t' →
    t.answers = t'.answers ∧ t.busTrace = t'.busTrace ∧ t.diagTrace = t'.diagTrace ∧ t.identity = t'.identity ∧
      t.st = t'.st ∧ t.busy = t'.busy

/-! ## Who writes what, over every step (spec/10_state.md R20) -/

/-- R20, R28 to R31: the writers of the registers of an attach. Over every step, REC changes only at S_BLOCK, CRCB only at
S_CMDCRC and S_DATACRC, RES only at S_CHECK, S_PARSE and S_STORE, all on the sequencer's turn, and BUSY only where an ATTACH
is accepted (to 1) and at S_EXIT (to 0); the reset event may change each of them. (What REC, CRCB and RES hold after a reset
event is the model's choice, log entry 3, and is not stated; the turns are log entry 4.) -/
def Obligations.RegisterWriters : Prop :=
  ∀ s t : State, step s = .next t → s.turn ≠ .reset →
    ((∀ a, t.record.read a = s.record.read a) ∨ (s.turn = .seq ∧ s.st = .block)) ∧
      (t.record = s.record ∨ (s.turn = .seq ∧ s.st = .block)) ∧
      (t.crcb = s.crcb ∨ (s.turn = .seq ∧ (s.st = .cmdCrc ∨ s.st = .dataCrc))) ∧
      (t.res = s.res ∨ (s.turn = .seq ∧ (s.st = .check ∨ s.st = .parse ∨ s.st = .store))) ∧
      (t.busy = s.busy ∨ (t.busy = true ∧ t.st = .lock ∧ ∃ ctx, s.turn = .host ctx ∧ s.hostCode ctx = some 0#2) ∨
        (t.busy = false ∧ s.turn = .seq ∧ s.st = .exit))

/-- R64, R90, R91: the frame of the turns that carry no instruction of the block. Another user takes the bus only while the
block does not hold the lock; a release, and the bus master's stalling or answering again, change only that; the turn of the
frame outside S_WRITE and the turn of a context that presents nothing only pass. (The form of these turns and of the owner
bit is the model's choice, log entries 4, 5, 6 and 18.) -/
def Obligations.EnvironmentTurnsFrame : Prop :=
  ∀ s : State,
    (s.turn = .otherTakes → s.st = .idle ∨ s.st = .lock →
      step s = .next { s with turns := s.turns.tail, otherOwns := true }) ∧
      (s.turn = .otherTakes → s.st ≠ .idle → s.st ≠ .lock → step s = .next { s with turns := s.turns.tail }) ∧
      (s.turn = .otherReleases → step s = .next { s with turns := s.turns.tail, otherOwns := false }) ∧
      (s.turn = .busStalls → step s = .next { s with turns := s.turns.tail, stalled := true }) ∧
      (s.turn = .busResumes → step s = .next { s with turns := s.turns.tail, stalled := false }) ∧
      (s.turn = .frame → s.st ≠ .write → step s = .next { s with turns := s.turns.tail }) ∧
      (∀ ctx, s.turn = .host ctx → s.hostCode ctx = none → step s = .next { s with turns := s.turns.tail })
end

