-- ==== Sys2Proof/Laws/Memory.lean ====
section
/-! SUPPORT. The record buffer: reading after writing, and that every operation keeps the canonical form. -/

namespace Sys2Proof.Machine

theorem Memory.wfFrom_cons {lo x : Nat} {c : Byte} {m : Memory} :
    Memory.wfFrom lo ((x, c) :: m) = true ↔
      lo ≤ x ∧ x < recLen ∧ c ≠ Memory.unlisted ∧ Memory.wfFrom (x + 1) m = true := by
  simp [Memory.wfFrom, and_assoc]

/-- A memory in canonical form from a higher address on is so from a lower one. -/
theorem Memory.wfFrom_mono {lo lo' : Nat} (h : lo' ≤ lo) {m : Memory} (hm : Memory.wfFrom lo m = true) :
    Memory.wfFrom lo' m = true := by
  cases m with
  | nil => rfl
  | cons e m => exact wfFrom_cons.2 ⟨h.trans (wfFrom_cons.1 hm).1, (wfFrom_cons.1 hm).2⟩

/-- An address below all entries is unlisted. -/
theorem Memory.read_below {m : Memory} {lo a : Nat} (hm : Memory.wfFrom lo m = true) (ha : a < lo) :
    m.read a = Memory.unlisted := by
  induction m generalizing lo with
  | nil => rfl
  | cons e m ih =>
    obtain ⟨h1, -, -, h4⟩ := wfFrom_cons.1 hm
    rw [Memory.read, if_neg (by omega)]
    exact ih h4 (by omega)

/-- A write inside the buffer keeps the canonical form. -/
theorem Memory.write_wfFrom {m : Memory} {lo a : Nat} (b : Byte) (hm : Memory.wfFrom lo m = true) (hlo : lo ≤ a)
    (ha : a < recLen) : Memory.wfFrom lo (m.write a b) = true := by
  induction m generalizing lo with
  | nil =>
    by_cases hb : b = Memory.unlisted
    · simp [Memory.write, hb, Memory.wfFrom]
    · simp [Memory.write, hb, Memory.wfFrom, hlo, ha]
  | cons e m ih =>
    obtain ⟨x, c⟩ := e
    obtain ⟨h1, h2, h3, h4⟩ := wfFrom_cons.1 hm
    rw [Memory.write]
    split
    · split
      · exact hm
      · exact wfFrom_cons.2 ⟨hlo, ha, ‹_›, wfFrom_cons.2 ⟨by omega, h2, h3, h4⟩⟩
    · split
      · split
        · exact wfFrom_mono (by omega) h4
        · subst a; exact wfFrom_cons.2 ⟨h1, h2, ‹_›, h4⟩
      · exact wfFrom_cons.2 ⟨h1, h2, h3, ih h4 (by omega)⟩

theorem Memory.write_wf {m : Memory} {a : Nat} (b : Byte) (hm : m.wf = true) (ha : a < recLen) :
    (m.write a b).wf = true :=
  write_wfFrom b hm (Nat.zero_le a) ha

/-- Reading after a write gives the value written at its address, and the old value at every other. -/
theorem Memory.read_writeFrom {m : Memory} {lo : Nat} (hm : Memory.wfFrom lo m = true) (a : Nat) (b : Byte) (x : Nat) :
    (m.write a b).read x = if x = a then b else m.read x := by
  induction m generalizing lo with
  | nil =>
    by_cases hb : b = Memory.unlisted
    · simp [Memory.write, hb, Memory.read]
    · simp [Memory.write, hb, Memory.read, eq_comm]
  | cons e m ih =>
    obtain ⟨y, c⟩ := e
    obtain ⟨h1, h2, h3, h4⟩ := wfFrom_cons.1 hm
    rw [Memory.write]
    split
    · next hay =>
      split
      · next hb =>
        by_cases hx : x = a
        · rw [if_pos hx, hb, hx, Memory.read, if_neg (by omega), read_below h4 (by omega)]
        · rw [if_neg hx]
      · by_cases hx : x = a
        · simp [Memory.read, hx]
        · simp [Memory.read, hx, Ne.symm hx]
    · split
      · next hay =>
        subst hay
        split
        · next hb =>
          by_cases hx : x = a
          · rw [if_pos hx, hb, hx, read_below h4 (by omega)]
          · simp [Memory.read, hx, Ne.symm hx]
        · by_cases hx : x = a
          · simp [Memory.read, hx]
          · simp [Memory.read, hx, Ne.symm hx]
      · next hlt hne =>
        by_cases hxy : y = x
        · subst hxy; simp [Memory.read, Ne.symm hne]
        · simp [Memory.read, hxy, ih h4]

theorem Memory.read_write {m : Memory} (hm : m.wf = true) (a : Nat) (b : Byte) (x : Nat) :
    (m.write a b).read x = if x = a then b else m.read x :=
  read_writeFrom hm a b x

/-- Loading bytes that fit in the buffer gives a memory in canonical form. -/
theorem Memory.loadFrom_wfFrom (bs : List Byte) (a : Nat) (h : a + bs.length ≤ recLen) :
    Memory.wfFrom a (Memory.loadFrom a bs) = true := by
  induction bs generalizing a with
  | nil => rfl
  | cons b bs ih =>
    rw [List.length_cons] at h
    exact write_wfFrom b (wfFrom_mono (Nat.le_succ a) (ih (a + 1) (by omega))) le_rfl (by omega)

/-- Loaded bytes read back, each at its own address. -/
theorem Memory.read_loadFrom (bs : List Byte) (a i : Nat) (h : a + bs.length ≤ recLen) (hi : i < bs.length) :
    (Memory.loadFrom a bs).read (a + i) = bs[i] := by
  induction bs generalizing a i with
  | nil => simp at hi
  | cons b bs ih =>
    rw [List.length_cons] at h hi
    rw [Memory.loadFrom, read_writeFrom (loadFrom_wfFrom bs (a + 1) (by omega))]
    cases i with
    | zero => simp
    | succ i =>
      rw [if_neg (by omega), show a + (i + 1) = a + 1 + i by omega, ih (a + 1) i (by omega) (by omega)]
      rfl

/-- The buffer after READ_BLOCK has the canonical form. -/
theorem Memory.ofBlock_wf (r : Block) : (Memory.ofBlock r).wf = true :=
  loadFrom_wfFrom r.toList 0 (by simp [recLen])

/-- `REC[i]` is the `i`-th byte received (R29, R54). -/
theorem Memory.read_ofBlock (r : Block) (i : Nat) (hi : i < 128) : (Memory.ofBlock r).read i = r[i] := by
  have h := read_loadFrom r.toList 0 i (by simp [recLen]) (by simpa using hi)
  simpa [Memory.ofBlock] using h

/-- The 128 bytes of the buffer after READ_BLOCK are the bytes received, in order. -/
@[simp] theorem Memory.bytes_ofBlock (r : Block) : (Memory.ofBlock r).bytes = r.toList := by
  refine List.ext_getElem (by simp [Memory.bytes, recLen]) fun i h1 h2 => ?_
  have hi : i < 128 := by simpa using h2
  simp [Memory.bytes, read_ofBlock r i hi]

/-- The buffer has 128 bytes. -/
@[simp] theorem Memory.length_bytes (m : Memory) : m.bytes.length = 128 := by simp [Memory.bytes, recLen]

/-- The memory after reset has the canonical form. -/
theorem Memory.reset_wf : State.reset.record.wf = true := rfl

end Sys2Proof.Machine
end

