-- ==== Sys2Proof/Laws/State.lean ====
section
/-! SUPPORT. One lemma per field per update of the state, each true by rfl: no later proof unfolds a record update. -/

namespace Sys2Proof.Machine

variable (s : State)

/-! ### `State.goto` -/

@[simp] theorem State.goto_identity (x : SeqState) : (s.goto x).identity = s.identity := rfl
@[simp] theorem State.goto_busy (x : SeqState) : (s.goto x).busy = s.busy := rfl
@[simp] theorem State.goto_st (x : SeqState) : (s.goto x).st = x := rfl
@[simp] theorem State.goto_retry (x : SeqState) : (s.goto x).retry = s.retry := rfl
@[simp] theorem State.goto_record (x : SeqState) : (s.goto x).record = s.record := rfl
@[simp] theorem State.goto_crcb (x : SeqState) : (s.goto x).crcb = s.crcb := rfl
@[simp] theorem State.goto_res (x : SeqState) : (s.goto x).res = s.res := rfl
@[simp] theorem State.goto_cfg (x : SeqState) : (s.goto x).cfg = s.cfg := rfl
@[simp] theorem State.goto_programs (x : SeqState) : (s.goto x).programs = s.programs := rfl
@[simp] theorem State.goto_issuer (x : SeqState) : (s.goto x).issuer = s.issuer := rfl
@[simp] theorem State.goto_server (x : SeqState) : (s.goto x).server = s.server := rfl
@[simp] theorem State.goto_held (x : SeqState) : (s.goto x).held = s.held := rfl
@[simp] theorem State.goto_answers (x : SeqState) : (s.goto x).answers = s.answers := rfl
@[simp] theorem State.goto_otherOwns (x : SeqState) : (s.goto x).otherOwns = s.otherOwns := rfl
@[simp] theorem State.goto_stalled (x : SeqState) : (s.goto x).stalled = s.stalled := rfl
@[simp] theorem State.goto_presences (x : SeqState) : (s.goto x).presences = s.presences := rfl
@[simp] theorem State.goto_bytesIn (x : SeqState) : (s.goto x).bytesIn = s.bytesIn := rfl
@[simp] theorem State.goto_blocksIn (x : SeqState) : (s.goto x).blocksIn = s.blocksIn := rfl
@[simp] theorem State.goto_busTrace (x : SeqState) : (s.goto x).busTrace = s.busTrace := rfl
@[simp] theorem State.goto_diagTrace (x : SeqState) : (s.goto x).diagTrace = s.diagTrace := rfl
@[simp] theorem State.goto_turns (x : SeqState) : (s.goto x).turns = s.turns := rfl

/-! ### `State.request` -/

@[simp] theorem State.request_identity (r : BusRequest) : (s.request r).identity = s.identity := rfl
@[simp] theorem State.request_busy (r : BusRequest) : (s.request r).busy = s.busy := rfl
@[simp] theorem State.request_st (r : BusRequest) : (s.request r).st = s.st := rfl
@[simp] theorem State.request_retry (r : BusRequest) : (s.request r).retry = s.retry := rfl
@[simp] theorem State.request_record (r : BusRequest) : (s.request r).record = s.record := rfl
@[simp] theorem State.request_crcb (r : BusRequest) : (s.request r).crcb = s.crcb := rfl
@[simp] theorem State.request_res (r : BusRequest) : (s.request r).res = s.res := rfl
@[simp] theorem State.request_cfg (r : BusRequest) : (s.request r).cfg = s.cfg := rfl
@[simp] theorem State.request_programs (r : BusRequest) : (s.request r).programs = s.programs := rfl
@[simp] theorem State.request_issuer (r : BusRequest) : (s.request r).issuer = s.issuer := rfl
@[simp] theorem State.request_server (r : BusRequest) : (s.request r).server = s.server := rfl
@[simp] theorem State.request_held (r : BusRequest) : (s.request r).held = s.held := rfl
@[simp] theorem State.request_answers (r : BusRequest) : (s.request r).answers = s.answers := rfl
@[simp] theorem State.request_otherOwns (r : BusRequest) : (s.request r).otherOwns = s.otherOwns := rfl
@[simp] theorem State.request_stalled (r : BusRequest) : (s.request r).stalled = s.stalled := rfl
@[simp] theorem State.request_presences (r : BusRequest) : (s.request r).presences = s.presences := rfl
@[simp] theorem State.request_bytesIn (r : BusRequest) : (s.request r).bytesIn = s.bytesIn := rfl
@[simp] theorem State.request_blocksIn (r : BusRequest) : (s.request r).blocksIn = s.blocksIn := rfl
@[simp] theorem State.request_busTrace (r : BusRequest) : (s.request r).busTrace = s.busTrace ++ [r] := rfl
@[simp] theorem State.request_diagTrace (r : BusRequest) : (s.request r).diagTrace = s.diagTrace := rfl
@[simp] theorem State.request_turns (r : BusRequest) : (s.request r).turns = s.turns := rfl

/-! ### `State.emitDiag` -/

@[simp] theorem State.emitDiag_identity (e : Err) : (s.emitDiag e).identity = s.identity := rfl
@[simp] theorem State.emitDiag_busy (e : Err) : (s.emitDiag e).busy = s.busy := rfl
@[simp] theorem State.emitDiag_st (e : Err) : (s.emitDiag e).st = s.st := rfl
@[simp] theorem State.emitDiag_retry (e : Err) : (s.emitDiag e).retry = s.retry := rfl
@[simp] theorem State.emitDiag_record (e : Err) : (s.emitDiag e).record = s.record := rfl
@[simp] theorem State.emitDiag_crcb (e : Err) : (s.emitDiag e).crcb = s.crcb := rfl
@[simp] theorem State.emitDiag_res (e : Err) : (s.emitDiag e).res = s.res := rfl
@[simp] theorem State.emitDiag_cfg (e : Err) : (s.emitDiag e).cfg = s.cfg := rfl
@[simp] theorem State.emitDiag_programs (e : Err) : (s.emitDiag e).programs = s.programs := rfl
@[simp] theorem State.emitDiag_issuer (e : Err) : (s.emitDiag e).issuer = s.issuer := rfl
@[simp] theorem State.emitDiag_server (e : Err) : (s.emitDiag e).server = s.server := rfl
@[simp] theorem State.emitDiag_held (e : Err) : (s.emitDiag e).held = s.held := rfl
@[simp] theorem State.emitDiag_answers (e : Err) : (s.emitDiag e).answers = s.answers := rfl
@[simp] theorem State.emitDiag_otherOwns (e : Err) : (s.emitDiag e).otherOwns = s.otherOwns := rfl
@[simp] theorem State.emitDiag_stalled (e : Err) : (s.emitDiag e).stalled = s.stalled := rfl
@[simp] theorem State.emitDiag_presences (e : Err) : (s.emitDiag e).presences = s.presences := rfl
@[simp] theorem State.emitDiag_bytesIn (e : Err) : (s.emitDiag e).bytesIn = s.bytesIn := rfl
@[simp] theorem State.emitDiag_blocksIn (e : Err) : (s.emitDiag e).blocksIn = s.blocksIn := rfl
@[simp] theorem State.emitDiag_busTrace (e : Err) : (s.emitDiag e).busTrace = s.busTrace := rfl
@[simp] theorem State.emitDiag_diagTrace (e : Err) : (s.emitDiag e).diagTrace = s.diagTrace ++ [e.code] := rfl
@[simp] theorem State.emitDiag_turns (e : Err) : (s.emitDiag e).turns = s.turns := rfl

/-! ### `State.respond` -/

@[simp] theorem State.respond_identity (ctx : Nat) (a : Answer) : (s.respond ctx a).identity = s.identity := rfl
@[simp] theorem State.respond_busy (ctx : Nat) (a : Answer) : (s.respond ctx a).busy = s.busy := rfl
@[simp] theorem State.respond_st (ctx : Nat) (a : Answer) : (s.respond ctx a).st = s.st := rfl
@[simp] theorem State.respond_retry (ctx : Nat) (a : Answer) : (s.respond ctx a).retry = s.retry := rfl
@[simp] theorem State.respond_record (ctx : Nat) (a : Answer) : (s.respond ctx a).record = s.record := rfl
@[simp] theorem State.respond_crcb (ctx : Nat) (a : Answer) : (s.respond ctx a).crcb = s.crcb := rfl
@[simp] theorem State.respond_res (ctx : Nat) (a : Answer) : (s.respond ctx a).res = s.res := rfl
@[simp] theorem State.respond_cfg (ctx : Nat) (a : Answer) : (s.respond ctx a).cfg = s.cfg := rfl
@[simp] theorem State.respond_programs (ctx : Nat) (a : Answer) : (s.respond ctx a).programs = s.programs := rfl
@[simp] theorem State.respond_issuer (ctx : Nat) (a : Answer) : (s.respond ctx a).issuer = s.issuer := rfl
@[simp] theorem State.respond_server (ctx : Nat) (a : Answer) : (s.respond ctx a).server = s.server := rfl
@[simp] theorem State.respond_held (ctx : Nat) (a : Answer) : (s.respond ctx a).held = s.held := rfl
@[simp] theorem State.respond_answers (ctx : Nat) (a : Answer) : (s.respond ctx a).answers = s.answers ++ [(ctx, a)] := rfl
@[simp] theorem State.respond_otherOwns (ctx : Nat) (a : Answer) : (s.respond ctx a).otherOwns = s.otherOwns := rfl
@[simp] theorem State.respond_stalled (ctx : Nat) (a : Answer) : (s.respond ctx a).stalled = s.stalled := rfl
@[simp] theorem State.respond_presences (ctx : Nat) (a : Answer) : (s.respond ctx a).presences = s.presences := rfl
@[simp] theorem State.respond_bytesIn (ctx : Nat) (a : Answer) : (s.respond ctx a).bytesIn = s.bytesIn := rfl
@[simp] theorem State.respond_blocksIn (ctx : Nat) (a : Answer) : (s.respond ctx a).blocksIn = s.blocksIn := rfl
@[simp] theorem State.respond_busTrace (ctx : Nat) (a : Answer) : (s.respond ctx a).busTrace = s.busTrace := rfl
@[simp] theorem State.respond_diagTrace (ctx : Nat) (a : Answer) : (s.respond ctx a).diagTrace = s.diagTrace := rfl
@[simp] theorem State.respond_turns (ctx : Nat) (a : Answer) : (s.respond ctx a).turns = s.turns := rfl

/-! ### `State.latchCrc` -/

@[simp] theorem State.latchCrc_identity (b : Byte) : (s.latchCrc b).identity = s.identity := rfl
@[simp] theorem State.latchCrc_busy (b : Byte) : (s.latchCrc b).busy = s.busy := rfl
@[simp] theorem State.latchCrc_st (b : Byte) : (s.latchCrc b).st = s.st := rfl
@[simp] theorem State.latchCrc_retry (b : Byte) : (s.latchCrc b).retry = s.retry := rfl
@[simp] theorem State.latchCrc_record (b : Byte) : (s.latchCrc b).record = s.record := rfl
@[simp] theorem State.latchCrc_crcb (b : Byte) : (s.latchCrc b).crcb = b := rfl
@[simp] theorem State.latchCrc_res (b : Byte) : (s.latchCrc b).res = s.res := rfl
@[simp] theorem State.latchCrc_cfg (b : Byte) : (s.latchCrc b).cfg = s.cfg := rfl
@[simp] theorem State.latchCrc_programs (b : Byte) : (s.latchCrc b).programs = s.programs := rfl
@[simp] theorem State.latchCrc_issuer (b : Byte) : (s.latchCrc b).issuer = s.issuer := rfl
@[simp] theorem State.latchCrc_server (b : Byte) : (s.latchCrc b).server = s.server := rfl
@[simp] theorem State.latchCrc_held (b : Byte) : (s.latchCrc b).held = s.held := rfl
@[simp] theorem State.latchCrc_answers (b : Byte) : (s.latchCrc b).answers = s.answers := rfl
@[simp] theorem State.latchCrc_otherOwns (b : Byte) : (s.latchCrc b).otherOwns = s.otherOwns := rfl
@[simp] theorem State.latchCrc_stalled (b : Byte) : (s.latchCrc b).stalled = s.stalled := rfl
@[simp] theorem State.latchCrc_presences (b : Byte) : (s.latchCrc b).presences = s.presences := rfl
@[simp] theorem State.latchCrc_bytesIn (b : Byte) : (s.latchCrc b).bytesIn = s.bytesIn := rfl
@[simp] theorem State.latchCrc_blocksIn (b : Byte) : (s.latchCrc b).blocksIn = s.blocksIn := rfl
@[simp] theorem State.latchCrc_busTrace (b : Byte) : (s.latchCrc b).busTrace = s.busTrace := rfl
@[simp] theorem State.latchCrc_diagTrace (b : Byte) : (s.latchCrc b).diagTrace = s.diagTrace := rfl
@[simp] theorem State.latchCrc_turns (b : Byte) : (s.latchCrc b).turns = s.turns := rfl

/-! ### `State.loadRecord` -/

@[simp] theorem State.loadRecord_identity (r : Block) : (s.loadRecord r).identity = s.identity := rfl
@[simp] theorem State.loadRecord_busy (r : Block) : (s.loadRecord r).busy = s.busy := rfl
@[simp] theorem State.loadRecord_st (r : Block) : (s.loadRecord r).st = s.st := rfl
@[simp] theorem State.loadRecord_retry (r : Block) : (s.loadRecord r).retry = s.retry := rfl
@[simp] theorem State.loadRecord_record (r : Block) : (s.loadRecord r).record = Memory.ofBlock r := rfl
@[simp] theorem State.loadRecord_crcb (r : Block) : (s.loadRecord r).crcb = s.crcb := rfl
@[simp] theorem State.loadRecord_res (r : Block) : (s.loadRecord r).res = s.res := rfl
@[simp] theorem State.loadRecord_cfg (r : Block) : (s.loadRecord r).cfg = s.cfg := rfl
@[simp] theorem State.loadRecord_programs (r : Block) : (s.loadRecord r).programs = s.programs := rfl
@[simp] theorem State.loadRecord_issuer (r : Block) : (s.loadRecord r).issuer = s.issuer := rfl
@[simp] theorem State.loadRecord_server (r : Block) : (s.loadRecord r).server = s.server := rfl
@[simp] theorem State.loadRecord_held (r : Block) : (s.loadRecord r).held = s.held := rfl
@[simp] theorem State.loadRecord_answers (r : Block) : (s.loadRecord r).answers = s.answers := rfl
@[simp] theorem State.loadRecord_otherOwns (r : Block) : (s.loadRecord r).otherOwns = s.otherOwns := rfl
@[simp] theorem State.loadRecord_stalled (r : Block) : (s.loadRecord r).stalled = s.stalled := rfl
@[simp] theorem State.loadRecord_presences (r : Block) : (s.loadRecord r).presences = s.presences := rfl
@[simp] theorem State.loadRecord_bytesIn (r : Block) : (s.loadRecord r).bytesIn = s.bytesIn := rfl
@[simp] theorem State.loadRecord_blocksIn (r : Block) : (s.loadRecord r).blocksIn = s.blocksIn := rfl
@[simp] theorem State.loadRecord_busTrace (r : Block) : (s.loadRecord r).busTrace = s.busTrace := rfl
@[simp] theorem State.loadRecord_diagTrace (r : Block) : (s.loadRecord r).diagTrace = s.diagTrace := rfl
@[simp] theorem State.loadRecord_turns (r : Block) : (s.loadRecord r).turns = s.turns := rfl

/-! ### `State.storeIdentity` -/

@[simp] theorem State.storeIdentity_identity (v : Word32) : (s.storeIdentity v).identity = some v := rfl
@[simp] theorem State.storeIdentity_busy (v : Word32) : (s.storeIdentity v).busy = s.busy := rfl
@[simp] theorem State.storeIdentity_st (v : Word32) : (s.storeIdentity v).st = s.st := rfl
@[simp] theorem State.storeIdentity_retry (v : Word32) : (s.storeIdentity v).retry = s.retry := rfl
@[simp] theorem State.storeIdentity_record (v : Word32) : (s.storeIdentity v).record = s.record := rfl
@[simp] theorem State.storeIdentity_crcb (v : Word32) : (s.storeIdentity v).crcb = s.crcb := rfl
@[simp] theorem State.storeIdentity_res (v : Word32) : (s.storeIdentity v).res = s.res := rfl
@[simp] theorem State.storeIdentity_cfg (v : Word32) : (s.storeIdentity v).cfg = s.cfg := rfl
@[simp] theorem State.storeIdentity_programs (v : Word32) : (s.storeIdentity v).programs = s.programs := rfl
@[simp] theorem State.storeIdentity_issuer (v : Word32) : (s.storeIdentity v).issuer = s.issuer := rfl
@[simp] theorem State.storeIdentity_server (v : Word32) : (s.storeIdentity v).server = s.server := rfl
@[simp] theorem State.storeIdentity_held (v : Word32) : (s.storeIdentity v).held = s.held := rfl
@[simp] theorem State.storeIdentity_answers (v : Word32) : (s.storeIdentity v).answers = s.answers := rfl
@[simp] theorem State.storeIdentity_otherOwns (v : Word32) : (s.storeIdentity v).otherOwns = s.otherOwns := rfl
@[simp] theorem State.storeIdentity_stalled (v : Word32) : (s.storeIdentity v).stalled = s.stalled := rfl
@[simp] theorem State.storeIdentity_presences (v : Word32) : (s.storeIdentity v).presences = s.presences := rfl
@[simp] theorem State.storeIdentity_bytesIn (v : Word32) : (s.storeIdentity v).bytesIn = s.bytesIn := rfl
@[simp] theorem State.storeIdentity_blocksIn (v : Word32) : (s.storeIdentity v).blocksIn = s.blocksIn := rfl
@[simp] theorem State.storeIdentity_busTrace (v : Word32) : (s.storeIdentity v).busTrace = s.busTrace := rfl
@[simp] theorem State.storeIdentity_diagTrace (v : Word32) : (s.storeIdentity v).diagTrace = s.diagTrace := rfl
@[simp] theorem State.storeIdentity_turns (v : Word32) : (s.storeIdentity v).turns = s.turns := rfl

/-! ### `State.clearIdentity` -/

@[simp] theorem State.clearIdentity_identity : s.clearIdentity.identity = none := rfl
@[simp] theorem State.clearIdentity_busy : s.clearIdentity.busy = s.busy := rfl
@[simp] theorem State.clearIdentity_st : s.clearIdentity.st = s.st := rfl
@[simp] theorem State.clearIdentity_retry : s.clearIdentity.retry = s.retry := rfl
@[simp] theorem State.clearIdentity_record : s.clearIdentity.record = s.record := rfl
@[simp] theorem State.clearIdentity_crcb : s.clearIdentity.crcb = s.crcb := rfl
@[simp] theorem State.clearIdentity_res : s.clearIdentity.res = s.res := rfl
@[simp] theorem State.clearIdentity_cfg : s.clearIdentity.cfg = s.cfg := rfl
@[simp] theorem State.clearIdentity_programs : s.clearIdentity.programs = s.programs := rfl
@[simp] theorem State.clearIdentity_issuer : s.clearIdentity.issuer = s.issuer := rfl
@[simp] theorem State.clearIdentity_server : s.clearIdentity.server = s.server := rfl
@[simp] theorem State.clearIdentity_held : s.clearIdentity.held = s.held := rfl
@[simp] theorem State.clearIdentity_answers : s.clearIdentity.answers = s.answers := rfl
@[simp] theorem State.clearIdentity_otherOwns : s.clearIdentity.otherOwns = s.otherOwns := rfl
@[simp] theorem State.clearIdentity_stalled : s.clearIdentity.stalled = s.stalled := rfl
@[simp] theorem State.clearIdentity_presences : s.clearIdentity.presences = s.presences := rfl
@[simp] theorem State.clearIdentity_bytesIn : s.clearIdentity.bytesIn = s.bytesIn := rfl
@[simp] theorem State.clearIdentity_blocksIn : s.clearIdentity.blocksIn = s.blocksIn := rfl
@[simp] theorem State.clearIdentity_busTrace : s.clearIdentity.busTrace = s.busTrace := rfl
@[simp] theorem State.clearIdentity_diagTrace : s.clearIdentity.diagTrace = s.diagTrace := rfl
@[simp] theorem State.clearIdentity_turns : s.clearIdentity.turns = s.turns := rfl

/-! ### `State.acceptAttach` -/

@[simp] theorem State.acceptAttach_identity : s.acceptAttach.identity = s.identity := rfl
@[simp] theorem State.acceptAttach_busy : s.acceptAttach.busy = true := rfl
@[simp] theorem State.acceptAttach_st : s.acceptAttach.st = .lock := rfl
@[simp] theorem State.acceptAttach_retry : s.acceptAttach.retry = retryBudget := rfl
@[simp] theorem State.acceptAttach_record : s.acceptAttach.record = s.record := rfl
@[simp] theorem State.acceptAttach_crcb : s.acceptAttach.crcb = s.crcb := rfl
@[simp] theorem State.acceptAttach_res : s.acceptAttach.res = s.res := rfl
@[simp] theorem State.acceptAttach_cfg : s.acceptAttach.cfg = s.cfg := rfl
@[simp] theorem State.acceptAttach_programs : s.acceptAttach.programs = s.programs := rfl
@[simp] theorem State.acceptAttach_issuer : s.acceptAttach.issuer = s.issuer := rfl
@[simp] theorem State.acceptAttach_server : s.acceptAttach.server = s.issuer := rfl
@[simp] theorem State.acceptAttach_held : s.acceptAttach.held = s.held.erase s.issuer := rfl
@[simp] theorem State.acceptAttach_answers : s.acceptAttach.answers = s.answers := rfl
@[simp] theorem State.acceptAttach_otherOwns : s.acceptAttach.otherOwns = s.otherOwns := rfl
@[simp] theorem State.acceptAttach_stalled : s.acceptAttach.stalled = s.stalled := rfl
@[simp] theorem State.acceptAttach_presences : s.acceptAttach.presences = s.presences := rfl
@[simp] theorem State.acceptAttach_bytesIn : s.acceptAttach.bytesIn = s.bytesIn := rfl
@[simp] theorem State.acceptAttach_blocksIn : s.acceptAttach.blocksIn = s.blocksIn := rfl
@[simp] theorem State.acceptAttach_busTrace : s.acceptAttach.busTrace = s.busTrace := rfl
@[simp] theorem State.acceptAttach_diagTrace : s.acceptAttach.diagTrace = s.diagTrace := rfl
@[simp] theorem State.acceptAttach_turns : s.acceptAttach.turns = s.turns := rfl

/-! ### `State.holdAttach` -/

@[simp] theorem State.holdAttach_identity : s.holdAttach.identity = s.identity := rfl
@[simp] theorem State.holdAttach_busy : s.holdAttach.busy = s.busy := rfl
@[simp] theorem State.holdAttach_st : s.holdAttach.st = s.st := rfl
@[simp] theorem State.holdAttach_retry : s.holdAttach.retry = s.retry := rfl
@[simp] theorem State.holdAttach_record : s.holdAttach.record = s.record := rfl
@[simp] theorem State.holdAttach_crcb : s.holdAttach.crcb = s.crcb := rfl
@[simp] theorem State.holdAttach_res : s.holdAttach.res = s.res := rfl
@[simp] theorem State.holdAttach_cfg : s.holdAttach.cfg = s.cfg := rfl
@[simp] theorem State.holdAttach_programs : s.holdAttach.programs = s.programs := rfl
@[simp] theorem State.holdAttach_issuer : s.holdAttach.issuer = s.issuer := rfl
@[simp] theorem State.holdAttach_server : s.holdAttach.server = s.server := rfl
@[simp] theorem State.holdAttach_held : s.holdAttach.held = if s.issuer ∈ s.held then s.held else s.held ++ [s.issuer] := rfl
@[simp] theorem State.holdAttach_answers : s.holdAttach.answers = s.answers := rfl
@[simp] theorem State.holdAttach_otherOwns : s.holdAttach.otherOwns = s.otherOwns := rfl
@[simp] theorem State.holdAttach_stalled : s.holdAttach.stalled = s.stalled := rfl
@[simp] theorem State.holdAttach_presences : s.holdAttach.presences = s.presences := rfl
@[simp] theorem State.holdAttach_bytesIn : s.holdAttach.bytesIn = s.bytesIn := rfl
@[simp] theorem State.holdAttach_blocksIn : s.holdAttach.blocksIn = s.blocksIn := rfl
@[simp] theorem State.holdAttach_busTrace : s.holdAttach.busTrace = s.busTrace := rfl
@[simp] theorem State.holdAttach_diagTrace : s.holdAttach.diagTrace = s.diagTrace := rfl
@[simp] theorem State.holdAttach_turns : s.holdAttach.turns = s.turns := rfl

/-! ### `State.finishAttach` -/

@[simp] theorem State.finishAttach_identity : s.finishAttach.identity = s.identity := rfl
@[simp] theorem State.finishAttach_busy : s.finishAttach.busy = false := rfl
@[simp] theorem State.finishAttach_st : s.finishAttach.st = .idle := rfl
@[simp] theorem State.finishAttach_retry : s.finishAttach.retry = s.retry := rfl
@[simp] theorem State.finishAttach_record : s.finishAttach.record = s.record := rfl
@[simp] theorem State.finishAttach_crcb : s.finishAttach.crcb = s.crcb := rfl
@[simp] theorem State.finishAttach_res : s.finishAttach.res = s.res := rfl
@[simp] theorem State.finishAttach_cfg : s.finishAttach.cfg = s.cfg := rfl
@[simp] theorem State.finishAttach_programs : s.finishAttach.programs = s.programs := rfl
@[simp] theorem State.finishAttach_issuer : s.finishAttach.issuer = s.issuer := rfl
@[simp] theorem State.finishAttach_server : s.finishAttach.server = s.server := rfl
@[simp] theorem State.finishAttach_held : s.finishAttach.held = s.held := rfl
@[simp] theorem State.finishAttach_answers : s.finishAttach.answers = s.answers ++ [(s.server, .err s.res)] := rfl
@[simp] theorem State.finishAttach_otherOwns : s.finishAttach.otherOwns = s.otherOwns := rfl
@[simp] theorem State.finishAttach_stalled : s.finishAttach.stalled = s.stalled := rfl
@[simp] theorem State.finishAttach_presences : s.finishAttach.presences = s.presences := rfl
@[simp] theorem State.finishAttach_bytesIn : s.finishAttach.bytesIn = s.bytesIn := rfl
@[simp] theorem State.finishAttach_blocksIn : s.finishAttach.blocksIn = s.blocksIn := rfl
@[simp] theorem State.finishAttach_busTrace : s.finishAttach.busTrace = s.busTrace := rfl
@[simp] theorem State.finishAttach_diagTrace : s.finishAttach.diagTrace = s.diagTrace := rfl
@[simp] theorem State.finishAttach_turns : s.finishAttach.turns = s.turns := rfl

/-! ### `State.otherReleasesBus` -/

@[simp] theorem State.otherReleasesBus_identity : s.otherReleasesBus.identity = s.identity := rfl
@[simp] theorem State.otherReleasesBus_busy : s.otherReleasesBus.busy = s.busy := rfl
@[simp] theorem State.otherReleasesBus_st : s.otherReleasesBus.st = s.st := rfl
@[simp] theorem State.otherReleasesBus_retry : s.otherReleasesBus.retry = s.retry := rfl
@[simp] theorem State.otherReleasesBus_record : s.otherReleasesBus.record = s.record := rfl
@[simp] theorem State.otherReleasesBus_crcb : s.otherReleasesBus.crcb = s.crcb := rfl
@[simp] theorem State.otherReleasesBus_res : s.otherReleasesBus.res = s.res := rfl
@[simp] theorem State.otherReleasesBus_cfg : s.otherReleasesBus.cfg = s.cfg := rfl
@[simp] theorem State.otherReleasesBus_programs : s.otherReleasesBus.programs = s.programs := rfl
@[simp] theorem State.otherReleasesBus_issuer : s.otherReleasesBus.issuer = s.issuer := rfl
@[simp] theorem State.otherReleasesBus_server : s.otherReleasesBus.server = s.server := rfl
@[simp] theorem State.otherReleasesBus_held : s.otherReleasesBus.held = s.held := rfl
@[simp] theorem State.otherReleasesBus_answers : s.otherReleasesBus.answers = s.answers := rfl
@[simp] theorem State.otherReleasesBus_otherOwns : s.otherReleasesBus.otherOwns = false := rfl
@[simp] theorem State.otherReleasesBus_stalled : s.otherReleasesBus.stalled = s.stalled := rfl
@[simp] theorem State.otherReleasesBus_presences : s.otherReleasesBus.presences = s.presences := rfl
@[simp] theorem State.otherReleasesBus_bytesIn : s.otherReleasesBus.bytesIn = s.bytesIn := rfl
@[simp] theorem State.otherReleasesBus_blocksIn : s.otherReleasesBus.blocksIn = s.blocksIn := rfl
@[simp] theorem State.otherReleasesBus_busTrace : s.otherReleasesBus.busTrace = s.busTrace := rfl
@[simp] theorem State.otherReleasesBus_diagTrace : s.otherReleasesBus.diagTrace = s.diagTrace := rfl
@[simp] theorem State.otherReleasesBus_turns : s.otherReleasesBus.turns = s.turns := rfl

/-! ### `State.busStalls` -/

@[simp] theorem State.busStalls_identity : s.busStalls.identity = s.identity := rfl
@[simp] theorem State.busStalls_busy : s.busStalls.busy = s.busy := rfl
@[simp] theorem State.busStalls_st : s.busStalls.st = s.st := rfl
@[simp] theorem State.busStalls_retry : s.busStalls.retry = s.retry := rfl
@[simp] theorem State.busStalls_record : s.busStalls.record = s.record := rfl
@[simp] theorem State.busStalls_crcb : s.busStalls.crcb = s.crcb := rfl
@[simp] theorem State.busStalls_res : s.busStalls.res = s.res := rfl
@[simp] theorem State.busStalls_cfg : s.busStalls.cfg = s.cfg := rfl
@[simp] theorem State.busStalls_programs : s.busStalls.programs = s.programs := rfl
@[simp] theorem State.busStalls_issuer : s.busStalls.issuer = s.issuer := rfl
@[simp] theorem State.busStalls_server : s.busStalls.server = s.server := rfl
@[simp] theorem State.busStalls_held : s.busStalls.held = s.held := rfl
@[simp] theorem State.busStalls_answers : s.busStalls.answers = s.answers := rfl
@[simp] theorem State.busStalls_otherOwns : s.busStalls.otherOwns = s.otherOwns := rfl
@[simp] theorem State.busStalls_stalled : s.busStalls.stalled = true := rfl
@[simp] theorem State.busStalls_presences : s.busStalls.presences = s.presences := rfl
@[simp] theorem State.busStalls_bytesIn : s.busStalls.bytesIn = s.bytesIn := rfl
@[simp] theorem State.busStalls_blocksIn : s.busStalls.blocksIn = s.blocksIn := rfl
@[simp] theorem State.busStalls_busTrace : s.busStalls.busTrace = s.busTrace := rfl
@[simp] theorem State.busStalls_diagTrace : s.busStalls.diagTrace = s.diagTrace := rfl
@[simp] theorem State.busStalls_turns : s.busStalls.turns = s.turns := rfl

/-! ### `State.busResumes` -/

@[simp] theorem State.busResumes_identity : s.busResumes.identity = s.identity := rfl
@[simp] theorem State.busResumes_busy : s.busResumes.busy = s.busy := rfl
@[simp] theorem State.busResumes_st : s.busResumes.st = s.st := rfl
@[simp] theorem State.busResumes_retry : s.busResumes.retry = s.retry := rfl
@[simp] theorem State.busResumes_record : s.busResumes.record = s.record := rfl
@[simp] theorem State.busResumes_crcb : s.busResumes.crcb = s.crcb := rfl
@[simp] theorem State.busResumes_res : s.busResumes.res = s.res := rfl
@[simp] theorem State.busResumes_cfg : s.busResumes.cfg = s.cfg := rfl
@[simp] theorem State.busResumes_programs : s.busResumes.programs = s.programs := rfl
@[simp] theorem State.busResumes_issuer : s.busResumes.issuer = s.issuer := rfl
@[simp] theorem State.busResumes_server : s.busResumes.server = s.server := rfl
@[simp] theorem State.busResumes_held : s.busResumes.held = s.held := rfl
@[simp] theorem State.busResumes_answers : s.busResumes.answers = s.answers := rfl
@[simp] theorem State.busResumes_otherOwns : s.busResumes.otherOwns = s.otherOwns := rfl
@[simp] theorem State.busResumes_stalled : s.busResumes.stalled = false := rfl
@[simp] theorem State.busResumes_presences : s.busResumes.presences = s.presences := rfl
@[simp] theorem State.busResumes_bytesIn : s.busResumes.bytesIn = s.bytesIn := rfl
@[simp] theorem State.busResumes_blocksIn : s.busResumes.blocksIn = s.blocksIn := rfl
@[simp] theorem State.busResumes_busTrace : s.busResumes.busTrace = s.busTrace := rfl
@[simp] theorem State.busResumes_diagTrace : s.busResumes.diagTrace = s.diagTrace := rfl
@[simp] theorem State.busResumes_turns : s.busResumes.turns = s.turns := rfl

/-! ### `State.resetEvent` -/

@[simp] theorem State.resetEvent_identity : s.resetEvent.identity = none := rfl
@[simp] theorem State.resetEvent_busy : s.resetEvent.busy = false := rfl
@[simp] theorem State.resetEvent_st : s.resetEvent.st = .idle := rfl
@[simp] theorem State.resetEvent_retry : s.resetEvent.retry = State.reset.retry := rfl
@[simp] theorem State.resetEvent_record : s.resetEvent.record = State.reset.record := rfl
@[simp] theorem State.resetEvent_crcb : s.resetEvent.crcb = State.reset.crcb := rfl
@[simp] theorem State.resetEvent_res : s.resetEvent.res = State.reset.res := rfl
@[simp] theorem State.resetEvent_cfg : s.resetEvent.cfg = s.cfg := rfl
@[simp] theorem State.resetEvent_programs : s.resetEvent.programs = s.programs := rfl
@[simp] theorem State.resetEvent_issuer : s.resetEvent.issuer = s.issuer := rfl
@[simp] theorem State.resetEvent_server : s.resetEvent.server = s.server := rfl
@[simp] theorem State.resetEvent_held : s.resetEvent.held = s.held := rfl
@[simp] theorem State.resetEvent_answers : s.resetEvent.answers = s.answers := rfl
@[simp] theorem State.resetEvent_otherOwns : s.resetEvent.otherOwns = s.otherOwns := rfl
@[simp] theorem State.resetEvent_stalled : s.resetEvent.stalled = s.stalled := rfl
@[simp] theorem State.resetEvent_presences : s.resetEvent.presences = s.presences := rfl
@[simp] theorem State.resetEvent_bytesIn : s.resetEvent.bytesIn = s.bytesIn := rfl
@[simp] theorem State.resetEvent_blocksIn : s.resetEvent.blocksIn = s.blocksIn := rfl
@[simp] theorem State.resetEvent_busTrace : s.resetEvent.busTrace = if s.holdsLock then s.busTrace ++ [.unlock] else s.busTrace := rfl
@[simp] theorem State.resetEvent_diagTrace : s.resetEvent.diagTrace = s.diagTrace := rfl
@[simp] theorem State.resetEvent_turns : s.resetEvent.turns = s.turns := rfl

end Sys2Proof.Machine
end

