-- ==== Sys2Proof/Laws/Ops.lean ====
section
/-! SUPPORT. One lemma per shared operation: everything it can do, said once. -/

namespace Sys2Proof.Machine

variable {s t : State}

/-! ### The command frame and the validator -/

@[simp] theorem State.cmd_eq : s.cmd = commandFrame := rfl

/-- The command-echo reference is the constant `0x8D` (R142). -/
@[simp] theorem State.echoCrc_eq : s.echoCrc = 0x8D#8 := by
  show crc8 (commandFrame.drop 1) = 0x8D
  decide +kernel

@[simp] theorem crc8_nil : crc8 [] = crcInit := rfl

/-- The register after one more byte. -/
@[simp] theorem crc8_concat (bs : List Byte) (b : Byte) : crc8 (bs ++ [b]) = crcByte (crc8 bs) b := by
  simp [crc8]

/-- The bit of the inner loop is linear over exclusive OR. -/
theorem crcShift_xor (a b : Byte) : crcShift (a ^^^ b) = crcShift a ^^^ crcShift b := by
  simp only [crcShift, BitVec.getLsbD_xor, BitVec.ushiftRight_xor_distrib]
  have h : ∀ x y : Byte, x ^^^ crcPoly ^^^ (y ^^^ crcPoly) = x ^^^ y := fun x y => by
    rw [BitVec.xor_assoc, BitVec.xor_comm y, ← BitVec.xor_assoc crcPoly, BitVec.xor_self, BitVec.zero_xor]
  have h' : ∀ x y : Byte, x ^^^ y ^^^ crcPoly = x ^^^ crcPoly ^^^ y := fun x y => by
    rw [BitVec.xor_assoc, BitVec.xor_comm y, BitVec.xor_assoc]
  cases a.getLsbD 0 <;> cases b.getLsbD 0
  · rfl
  · exact BitVec.xor_assoc ..
  · exact h' ..
  · exact (h ..).symm

theorem crcShifts_xor (n : Nat) (a b : Byte) : crcShifts n (a ^^^ b) = crcShifts n a ^^^ crcShifts n b := by
  induction n generalizing a b with
  | zero => rfl
  | succ n ih => rw [crcShifts, crcShift_xor, ih]; rfl

/-! ### Who holds the bus -/

theorem State.holdsLock_iff : s.holdsLock = true ↔ s.st ≠ .idle ∧ s.st ≠ .lock := by
  unfold State.holdsLock; cases s.st <;> simp

theorem State.lockGranted_iff : s.lockGranted = true ↔ s.stalled = false ∧ s.otherOwns = false := by
  simp [State.lockGranted]

/-! ### The answers of the bus master -/

/-- An answer of RESET is taken exactly when the bus master answers and has one ready; nothing else changes. -/
theorem State.takePresence_eq_some {p : Presence} :
    s.takePresence = some (p, t) ↔
      s.stalled = false ∧ ∃ ps, s.presences = p :: ps ∧ t = { s with presences := ps } := by
  unfold State.takePresence
  cases s.stalled <;> cases s.presences <;> simp [and_assoc, eq_comm]

theorem State.takeByte_eq_some {b : Byte} :
    s.takeByte = some (b, t) ↔ s.stalled = false ∧ ∃ bs, s.bytesIn = b :: bs ∧ t = { s with bytesIn := bs } := by
  unfold State.takeByte
  cases s.stalled <;> cases s.bytesIn <;> simp [and_assoc, eq_comm]

theorem State.takeBlock_eq_some {r : Block} :
    s.takeBlock = some (r, t) ↔ s.stalled = false ∧ ∃ rs, s.blocksIn = r :: rs ∧ t = { s with blocksIn := rs } := by
  unfold State.takeBlock
  cases s.stalled <;> cases s.blocksIn <;> simp [and_assoc, eq_comm]

/-! ### Taking a fault (R121, R188, R189) -/

theorem State.takeFault_transient {e : Err} (h : errClass e = .transient) :
    s.takeFault e = { s with diagTrace := s.diagTrace ++ [e.code], retry := s.retry - 1#3, st := .check } := by
  simp [State.takeFault, h, State.emitDiag]

theorem State.takeFault_permanent {e : Err} (h : errClass e = .permanent) :
    s.takeFault e = { s with diagTrace := s.diagTrace ++ [e.code], res := e.code, st := .exit } := by
  simp [State.takeFault, h, State.emitDiag]

/-- A fault leaves the identity, BUSY, the record and every part of the environment alone. -/
theorem State.takeFault_frame (e : Err) :
    (s.takeFault e).identity = s.identity ∧ (s.takeFault e).busy = s.busy ∧ (s.takeFault e).record = s.record ∧
      (s.takeFault e).crcb = s.crcb ∧ (s.takeFault e).cfg = s.cfg ∧ (s.takeFault e).busTrace = s.busTrace ∧
      (s.takeFault e).answers = s.answers ∧ (s.takeFault e).held = s.held ∧ (s.takeFault e).server = s.server := by
  cases e <;> simp [State.takeFault, errClass]

/-! ### The steps that follow an answer -/

/-- S_RESET goes on, or raises BUS_RESET_FAILURE (R113). -/
theorem State.afterReset_eq (p : Presence) :
    s.afterReset p =
      match p with
      | .present => { s with busTrace := s.busTrace ++ [.reset], st := .write }
      | .absent =>
        { s with busTrace := s.busTrace ++ [.reset], diagTrace := s.diagTrace ++ [1#3], retry := s.retry - 1#3,
                 st := .check } := by
  cases p <;> rfl

/-- S_CMDCRC passes exactly on the byte `0x8D` (R115, R142). -/
theorem State.afterEchoByte_eq (b : Byte) :
    s.afterEchoByte b =
      if b = 0x8D#8 then { s with busTrace := s.busTrace ++ [.readByte], crcb := b, st := .block }
      else
        { s with busTrace := s.busTrace ++ [.readByte], crcb := b, diagTrace := s.diagTrace ++ [2#3],
                 retry := s.retry - 1#3, st := .check } := by
  have hok : ((s.request .readByte).latchCrc b).echoCrcOk = decide (b = 0x8D#8) := by simp [State.echoCrcOk]
  simp only [State.afterEchoByte, hok, decide_eq_true_eq, takeFault_transient (e := .commandCrcMismatch) rfl]
  rfl

/-- S_DATACRC passes exactly on the CRC of the record (R117, R143). -/
theorem State.afterPayloadByte_eq (b : Byte) :
    s.afterPayloadByte b =
      if b = crc8 s.record.bytes then { s with busTrace := s.busTrace ++ [.readByte], crcb := b, st := .parse }
      else
        { s with busTrace := s.busTrace ++ [.readByte], crcb := b, diagTrace := s.diagTrace ++ [3#3],
                 retry := s.retry - 1#3, st := .check } := by
  have hok : ((s.request .readByte).latchCrc b).recordCrcOk = decide (b = crc8 s.record.bytes) := rfl
  simp only [State.afterPayloadByte, hok, decide_eq_true_eq, takeFault_transient (e := .payloadCrcMismatch) rfl]
  rfl

theorem State.afterBlock_eq (r : Block) :
    s.afterBlock r =
      { s with busTrace := s.busTrace ++ [.readBlock 128], record := Memory.ofBlock r, st := .dataCrc } := rfl

theorem State.transmitFrame_eq (bytes : List Byte) :
    s.transmitFrame bytes = { s with busTrace := s.busTrace ++ [.write bytes], st := .cmdCrc } := rfl

/-! ### The steps that issue no request -/

theorem seqCheck_eq :
    seqCheck s =
      if s.retry = 0#3 then { s with diagTrace := s.diagTrace ++ [4#3], res := 4#3, st := .exit }
      else { s with st := .reset } := by
  simp only [seqCheck, State.budgetEmpty, decide_eq_true_eq, State.takeFault_permanent (e := .retriesExhausted) rfl]
  rfl

theorem seqParse_eq :
    seqParse s =
      if magic s.record = 0xE54C21ED#32 then { s with st := .store }
      else { s with diagTrace := s.diagTrace ++ [5#3], res := 5#3, st := .exit } := by
  have hok : s.magicOk = decide (magic s.record = 0xE54C21ED#32) := rfl
  simp only [seqParse, hok, decide_eq_true_eq, State.takeFault_permanent (e := .invalidMagic) rfl]
  rfl

theorem seqStore_eq :
    seqStore s = { s with identity := some (identifier s.cfg s.record), res := 0#3, st := .exit } := rfl

/-! ### Bytes joined into a word -/

/-- Four bytes joined, as a number: the last one is the least significant. -/
theorem toNat_append_bytes (a b c d : Byte) :
    BitVec.toNat (w := 32) (d ++ c ++ b ++ a) = a.toNat + 256 * b.toNat + 65536 * c.toNat + 16777216 * d.toNat := by
  have ha := a.isLt; have hb := b.isLt; have hc := c.isLt
  show BitVec.toNat (w := 8 + 8 + 8 + 8) (d ++ c ++ b ++ a) = _
  rw [BitVec.toNat_append, BitVec.toNat_append, BitVec.toNat_append, ← Nat.shiftLeft_add_eq_or_of_lt ha,
    ← Nat.shiftLeft_add_eq_or_of_lt hb, ← Nat.shiftLeft_add_eq_or_of_lt hc]
  simp only [Nat.shiftLeft_eq]; omega

/-- Three bytes joined, as a number. -/
theorem toNat_append_threeBytes (a b c : Byte) :
    BitVec.toNat (w := 24) (c ++ b ++ a) = a.toNat + 256 * b.toNat + 65536 * c.toNat := by
  have ha := a.isLt; have hb := b.isLt
  show BitVec.toNat (w := 8 + 8 + 8) (c ++ b ++ a) = _
  rw [BitVec.toNat_append, BitVec.toNat_append, ← Nat.shiftLeft_add_eq_or_of_lt ha,
    ← Nat.shiftLeft_add_eq_or_of_lt hb]
  simp only [Nat.shiftLeft_eq]; omega

/-! ### The definitions of Safety.lean -/

/-- The invariant with its parts written out. -/
theorem State.inv_iff :
    s.Inv ↔
      (s.busy = false ↔ s.st = .idle) ∧ (s.busy = true → s.retry.toNat ≤ 5) ∧
        (s.st.inAttempt = true → s.retry ≠ 0#3) ∧ (s.st = .lock → s.retry = 5#3) ∧
        (s.st = .exit → attachCodeWf s.res = true) ∧ s.record.wf = true ∧
        (s.st = .parse ∨ s.st = .store → s.crcb = crc8 s.record.bytes) ∧
        (s.st = .store → magic s.record = 0xE54C21ED#32) ∧ (s.holdsLock = true → s.otherOwns = false) ∧
        s.held.Nodup ∧ (s.busy = true → s.server ∉ s.held) := by
  have h1 : s.recordCrcOk = true ↔ s.crcb = crc8 s.record.bytes := decide_eq_true_iff
  have h2 : s.magicOk = true ↔ magic s.record = 0xE54C21ED#32 := decide_eq_true_iff
  simp only [State.Inv, State.crcPassed, State.magicPassed, h1, h2]

/-- A context that presents a command is not the one being served. -/
theorem State.server_ne_of_hostCode {ctx : Nat} {op : HcCode} (h : s.hostCode ctx = some op) (hb : s.busy = true) :
    s.server ≠ ctx := by
  intro he
  simp [State.hostCode, State.waits, hb, he] at h

theorem scanTrace_append (trace : List BusRequest) (r : BusRequest) (p : BusPhase) :
    scanTrace (trace ++ [r]) p = (scanTrace trace p).bind (·.next r) := by
  induction trace generalizing p with
  | nil => cases h : p.next r <;> simp [scanTrace, h]
  | cons x xs ih => cases h : p.next x <;> simp [scanTrace, h, ih]

theorem resetsInBracket_append (trace : List BusRequest) (r : BusRequest) :
    resetsInBracket (trace ++ [r]) =
      if r = .lock then 0 else if r = .reset then resetsInBracket trace + 1 else resetsInBracket trace := by
  simp [resetsInBracket]

end Sys2Proof.Machine
end

