-- ==== Sys2Proof/Laws/Exec.lean ====
section
/-! SUPPORT. One inversion lemma per meaning: if it answers a next state, then one of these cases holds. -/

namespace Sys2Proof.Machine

variable {s t : State}

theorem execAttach_next :
    execAttach s = .next t ↔
      (s.busy = true ∧ t = s.holdAttach) ∨ (s.busy = false ∧ t = s.acceptAttach) := by
  unfold execAttach
  cases s.busy <;> simp [eq_comm]

theorem execDetach_next :
    execDetach s = .next t ↔ t = { s with identity := none, answers := s.answers ++ [(s.issuer, .done)] } := by
  simp [execDetach, State.respond, State.clearIdentity, eq_comm]

theorem execHasIdentity_next :
    execHasIdentity s = .next t ↔ t = { s with answers := s.answers ++ [(s.issuer, .bit s.identity.isSome)] } := by
  simp [execHasIdentity, State.respond, State.idValid, eq_comm]

theorem execClassification_next :
    execClassification s = .next t ↔
      t = { s with answers := s.answers ++ [(s.issuer, .code s.classification)] } := by
  simp [execClassification, State.respond, eq_comm]

/-- LOCK: granted, or waiting. -/
theorem execLock_next :
    execLock s = .next t ↔
      s.st = .lock ∧
        ((s.lockGranted = true ∧ t = { s with busTrace := s.busTrace ++ [.lock], st := .check }) ∨
          (s.lockGranted = false ∧ t = s)) := by
  unfold execLock
  by_cases h : s.st = .lock
  · cases s.lockGranted <;> simp [h, State.request, State.goto, eq_comm]
  · simp [h]

/-- RESET: answered, or waiting. -/
theorem execReset_next :
    execReset s = .next t ↔
      s.st = .reset ∧
        ((s.stalled = false ∧ ∃ p ps, s.presences = p :: ps ∧ t = State.afterReset { s with presences := ps } p) ∨
          ((s.stalled = true ∨ s.presences = []) ∧ t = s)) := by
  unfold execReset State.takePresence
  by_cases h : s.st = .reset
  · cases s.stalled <;> cases s.presences <;> simp [h, eq_comm]
  · simp [h]

/-- WRITE: done, or waiting. -/
theorem execWrite_next :
    execWrite s = .next t ↔
      s.st = .write ∧
        ((s.stalled = false ∧ t = { s with busTrace := s.busTrace ++ [.write commandFrame], st := .cmdCrc }) ∨
          (s.stalled = true ∧ t = s)) := by
  unfold execWrite
  by_cases h : s.st = .write
  · cases hs : s.stalled <;> simp [h, hs, State.transmitFrame_eq, eq_comm]
  · simp [h]

/-- The frame is the payload of WRITE: the same step. -/
theorem execReadRecordFrame_eq : execReadRecordFrame s = execWrite s := rfl

/-- READ_BYTE: the command-echo byte, the payload byte, or waiting. -/
theorem execReadByte_next :
    execReadByte s = .next t ↔
      (s.st = .cmdCrc ∧ s.stalled = false ∧
          ∃ b bs, s.bytesIn = b :: bs ∧ t = State.afterEchoByte { s with bytesIn := bs } b) ∨
        (s.st = .dataCrc ∧ s.stalled = false ∧
          ∃ b bs, s.bytesIn = b :: bs ∧ t = State.afterPayloadByte { s with bytesIn := bs } b) ∨
        ((s.st = .cmdCrc ∨ s.st = .dataCrc) ∧ (s.stalled = true ∨ s.bytesIn = []) ∧ t = s) := by
  unfold execReadByte State.takeByte
  by_cases h : s.st = .cmdCrc
  · cases s.stalled <;> cases s.bytesIn <;> simp [h, eq_comm]
  · by_cases h' : s.st = .dataCrc
    · cases s.stalled <;> cases s.bytesIn <;> simp [h', eq_comm]
    · simp [h, h']

/-- READ_BLOCK: answered, or waiting. -/
theorem execReadBlock_next :
    execReadBlock s = .next t ↔
      s.st = .block ∧
        ((s.stalled = false ∧ ∃ r rs, s.blocksIn = r :: rs ∧ t = State.afterBlock { s with blocksIn := rs } r) ∨
          ((s.stalled = true ∨ s.blocksIn = []) ∧ t = s)) := by
  unfold execReadBlock State.takeBlock
  by_cases h : s.st = .block
  · cases s.stalled <;> cases s.blocksIn <;> simp [h, eq_comm]
  · simp [h]

/-- UNLOCK: done, or waiting. -/
theorem execUnlock_next :
    execUnlock s = .next t ↔
      s.st = .exit ∧
        ((s.stalled = false ∧
            t = { s with busTrace := s.busTrace ++ [.unlock], answers := s.answers ++ [(s.server, .err s.res)],
                         busy := false, st := .idle }) ∨
          (s.stalled = true ∧ t = s)) := by
  unfold execUnlock
  by_cases h : s.st = .exit
  · cases hs : s.stalled <;> simp [h, hs, State.finishAttach, State.respond, State.request, eq_comm]
  · simp [h]

end Sys2Proof.Machine
end

