-- ==== Sys2Proof/Laws/PerInstr.lean ====
section
/-! SUPPORT. A statement made per instruction: its encoding has the width of its format, and its bytes fit its port. -/

/-- `encode i` is one byte below 4 for a host command, one byte below 8 for a bus request, and the four bytes of the
command frame for W1 (R71 to R73). -/
def Sys2Proof.Laws.CodeWidth.Statement (i : Sys2Proof.Instr) : Prop :=
  match i.format with
  | .hc => (Sys2Proof.encode i).length = 1 ∧ ∀ b ∈ Sys2Proof.encode i, b.toNat < 4
  | .br => (Sys2Proof.encode i).length = 1 ∧ ∀ b ∈ Sys2Proof.encode i, b.toNat < 8
  | .w1 => Sys2Proof.encode i = Sys2Proof.commandFrame ∧ (Sys2Proof.encode i).length = 4

theorem Sys2Proof.Laws.CodeWidth.attach : Sys2Proof.Laws.CodeWidth.Statement .attach :=
  ⟨rfl, by simp [Sys2Proof.encode]⟩

theorem Sys2Proof.Laws.CodeWidth.detach : Sys2Proof.Laws.CodeWidth.Statement .detach :=
  ⟨rfl, by simp [Sys2Proof.encode]⟩

theorem Sys2Proof.Laws.CodeWidth.hasIdentity : Sys2Proof.Laws.CodeWidth.Statement .hasIdentity :=
  ⟨rfl, by simp [Sys2Proof.encode]⟩

theorem Sys2Proof.Laws.CodeWidth.classification : Sys2Proof.Laws.CodeWidth.Statement .classification :=
  ⟨rfl, by simp [Sys2Proof.encode]⟩

theorem Sys2Proof.Laws.CodeWidth.lock : Sys2Proof.Laws.CodeWidth.Statement .lock :=
  ⟨rfl, by simp [Sys2Proof.encode]⟩

theorem Sys2Proof.Laws.CodeWidth.reset : Sys2Proof.Laws.CodeWidth.Statement .reset :=
  ⟨rfl, by simp [Sys2Proof.encode]⟩

theorem Sys2Proof.Laws.CodeWidth.write : Sys2Proof.Laws.CodeWidth.Statement .write :=
  ⟨rfl, by simp [Sys2Proof.encode]⟩

theorem Sys2Proof.Laws.CodeWidth.readByte : Sys2Proof.Laws.CodeWidth.Statement .readByte :=
  ⟨rfl, by simp [Sys2Proof.encode]⟩

theorem Sys2Proof.Laws.CodeWidth.readBlock : Sys2Proof.Laws.CodeWidth.Statement .readBlock :=
  ⟨rfl, by simp [Sys2Proof.encode]⟩

theorem Sys2Proof.Laws.CodeWidth.unlock : Sys2Proof.Laws.CodeWidth.Statement .unlock :=
  ⟨rfl, by simp [Sys2Proof.encode]⟩

theorem Sys2Proof.Laws.CodeWidth.readRecordFrame : Sys2Proof.Laws.CodeWidth.Statement .readRecordFrame :=
  ⟨rfl, rfl⟩
end

