-- ==== Sys2Proof/Laws/Step.lean ====
section
/-! SUPPORT. What one step is, by whose turn it is and where the sequencer stands. -/

namespace Sys2Proof.Machine

variable {s : State}

theorem decode_hc (op : HcCode) (rest : List Byte) :
    decode .hc (op.setWidth 8 :: rest) = .ok (decodeHc op, rest) := by
  have h : (op.setWidth 8).toNat < 4 ∧ (op.setWidth 8).setWidth 2 = op := by revert op; decide
  simp only [decode, if_pos h.1, h.2]

/-! ### The updates a turn makes -/

@[simp] theorem State.endTurn_turns : s.endTurn.turns = s.turns.tail := rfl
@[simp] theorem State.endTurn_st : s.endTurn.st = s.st := rfl
@[simp] theorem State.endTurn_identity : s.endTurn.identity = s.identity := rfl
@[simp] theorem State.endTurn_busy : s.endTurn.busy = s.busy := rfl
@[simp] theorem State.endTurn_retry : s.endTurn.retry = s.retry := rfl
@[simp] theorem State.endTurn_record : s.endTurn.record = s.record := rfl
@[simp] theorem State.endTurn_crcb : s.endTurn.crcb = s.crcb := rfl
@[simp] theorem State.endTurn_res : s.endTurn.res = s.res := rfl
@[simp] theorem State.endTurn_cfg : s.endTurn.cfg = s.cfg := rfl
@[simp] theorem State.endTurn_programs : s.endTurn.programs = s.programs := rfl
@[simp] theorem State.endTurn_issuer : s.endTurn.issuer = s.issuer := rfl
@[simp] theorem State.endTurn_server : s.endTurn.server = s.server := rfl
@[simp] theorem State.endTurn_held : s.endTurn.held = s.held := rfl
@[simp] theorem State.endTurn_answers : s.endTurn.answers = s.answers := rfl
@[simp] theorem State.endTurn_otherOwns : s.endTurn.otherOwns = s.otherOwns := rfl
@[simp] theorem State.endTurn_stalled : s.endTurn.stalled = s.stalled := rfl
@[simp] theorem State.endTurn_presences : s.endTurn.presences = s.presences := rfl
@[simp] theorem State.endTurn_bytesIn : s.endTurn.bytesIn = s.bytesIn := rfl
@[simp] theorem State.endTurn_blocksIn : s.endTurn.blocksIn = s.blocksIn := rfl
@[simp] theorem State.endTurn_busTrace : s.endTurn.busTrace = s.busTrace := rfl
@[simp] theorem State.endTurn_diagTrace : s.endTurn.diagTrace = s.diagTrace := rfl
@[simp] theorem State.endTurn_waits (ctx : Nat) : s.endTurn.waits ctx = s.waits ctx := rfl
@[simp] theorem State.endTurn_hostCode (ctx : Nat) : s.endTurn.hostCode ctx = s.hostCode ctx := rfl

/-! ### The commands not yet issued: a context's next one is its first entry -/

theorem nextCode_of_first {ctx : Nat} (op : HcCode) {before : List (Nat × HcCode)} (after : List (Nat × HcCode))
    (h : ∀ e ∈ before, e.1 ≠ ctx) : nextCode (before ++ (ctx, op) :: after) ctx = some op := by
  induction before with
  | nil => simp [nextCode]
  | cons e es ih => simp [nextCode, h e (by simp), ih fun x hx => h x (by simp [hx])]

theorem dropCode_of_first {ctx : Nat} (op : HcCode) {before : List (Nat × HcCode)} (after : List (Nat × HcCode))
    (h : ∀ e ∈ before, e.1 ≠ ctx) : dropCode (before ++ (ctx, op) :: after) ctx = before ++ after := by
  induction before with
  | nil => simp [dropCode]
  | cons e es ih => simp [dropCode, h e (by simp), ih fun x hx => h x (by simp [hx])]

theorem nextCode_eq_none {ctx : Nat} {ps : List (Nat × HcCode)} (h : ∀ e ∈ ps, e.1 ≠ ctx) : nextCode ps ctx = none := by
  induction ps with
  | nil => rfl
  | cons e es ih => simp [nextCode, h e (by simp), ih fun x hx => h x (by simp [hx])]

/-! ### The command a context presents -/

theorem State.waits_iff {ctx : Nat} : s.waits ctx = true ↔ s.busy = true ∧ s.server = ctx := by
  simp [State.waits]

theorem State.hostCode_waiting {ctx : Nat} (h : s.busy = true ∧ s.server = ctx) : s.hostCode ctx = none := by
  simp [State.hostCode, State.waits_iff.2 h]

theorem State.hostCode_held {ctx : Nat} (h : ¬(s.busy = true ∧ s.server = ctx)) (hh : ctx ∈ s.held) :
    s.hostCode ctx = some 0#2 := by
  rw [State.hostCode, if_neg (fun hw => h (State.waits_iff.1 hw)), if_pos hh]
  rfl

theorem State.hostCode_program {ctx : Nat} (h : ¬(s.busy = true ∧ s.server = ctx)) (hh : ctx ∉ s.held) :
    s.hostCode ctx = nextCode s.programs ctx := by
  rw [State.hostCode, if_neg (fun hw => h (State.waits_iff.1 hw)), if_neg hh]

/-- With an empty schedule the turn uses up nothing. -/
theorem State.endTurn_of_nil (h : s.turns = []) : s.endTurn = s := by
  cases s; cases h; rfl

/-- Presenting a command changes the issuer and the programs only. -/
theorem State.present_eq (ctx : Nat) : ∃ n ps, s.present ctx = { s with issuer := n, programs := ps } := by
  unfold State.present
  split
  · exact ⟨s.issuer, s.programs, rfl⟩
  · exact ⟨_, _, rfl⟩

theorem advance_eq (h : ∀ ctx, s.turn ≠ .host ctx) : advance s = s.endTurn := by
  unfold advance
  split
  · exact absurd ‹_› (h _)
  all_goals rfl

/-! ### A step -/

theorem step_of_fetch_none (h : fetch s = none) : step s = .next (internal s.turn (advance s)) := by
  simp [step, h]

theorem step_of_fetch {f : Format} {bytes rest : List Byte} {i : Instr} (h : fetch s = some (f, bytes))
    (hd : decode f bytes = .ok (i, rest)) : step s = exec i (advance s) := by
  simp [step, h, hd]

/-- The sequencer's turn: each state that issues a request runs it, the others take their own step. -/
theorem step_seq (h : s.turn = .seq) :
    step s =
      match s.st with
      | .idle => .next s.endTurn
      | .lock => execLock s.endTurn
      | .check => .next (seqCheck s.endTurn)
      | .reset => execReset s.endTurn
      | .write => execWrite s.endTurn
      | .cmdCrc => execReadByte s.endTurn
      | .block => execReadBlock s.endTurn
      | .dataCrc => execReadByte s.endTurn
      | .parse => .next (seqParse s.endTurn)
      | .store => .next (seqStore s.endTurn)
      | .exit => execUnlock s.endTurn := by
  have ha : advance s = s.endTurn := advance_eq (by simp [h])
  have hf : fetch s = (requestCode s.st).map (fun c => (.br, [c.setWidth 8])) := by simp [fetch, h]
  cases hst : s.st <;> rw [hst] at hf <;>
    first
    | rw [step_of_fetch_none hf, ha]; simp [h, internal, seqInternal, hst]
    | rw [step_of_fetch hf rfl, ha]; rfl

/-- A host context's turn with nothing to present. -/
theorem step_host_none {ctx : Nat} (h : s.turn = .host ctx) (hc : s.hostCode ctx = none) : step s = .next s.endTurn := by
  rw [step_of_fetch_none (by simp [fetch, h, hc])]
  simp [internal, h, advance, State.present, hc]

/-- A host context's turn with a command. -/
theorem step_host {ctx : Nat} {op : HcCode} (h : s.turn = .host ctx) (hc : s.hostCode ctx = some op) :
    step s = exec (decodeHc op) (s.endTurn.present ctx) := by
  rw [step_of_fetch (f := .hc) (rest := []) (by simp [fetch, h, hc]) (decode_hc op [])]
  simp [advance, h]

/-- The frame's turn: S_WRITE under its other name, and nothing elsewhere. -/
theorem step_frame (h : s.turn = .frame) :
    step s = if s.st = .write then execReadRecordFrame s.endTurn else .next s.endTurn := by
  have ha : advance s = s.endTurn := advance_eq (by simp [h])
  split
  · next hst => rw [step_of_fetch (f := .w1) (rest := []) (by simp [fetch, h, hst]; rfl) rfl, ha]; rfl
  · next hst => rw [step_of_fetch_none (by simp [fetch, h, hst]), ha]; simp [internal, h]

theorem step_otherTakes (h : s.turn = .otherTakes) : step s = .next s.endTurn.otherTakesBus := by
  rw [step_of_fetch_none (by simp [fetch, h])]; simp [internal, h, advance]

theorem step_otherReleases (h : s.turn = .otherReleases) : step s = .next s.endTurn.otherReleasesBus := by
  rw [step_of_fetch_none (by simp [fetch, h])]; simp [internal, h, advance]

theorem step_busStalls (h : s.turn = .busStalls) : step s = .next s.endTurn.busStalls := by
  rw [step_of_fetch_none (by simp [fetch, h])]; simp [internal, h, advance]

theorem step_busResumes (h : s.turn = .busResumes) : step s = .next s.endTurn.busResumes := by
  rw [step_of_fetch_none (by simp [fetch, h])]; simp [internal, h, advance]

theorem step_reset (h : s.turn = .reset) : step s = .next s.endTurn.resetEvent := by
  rw [step_of_fetch_none (by simp [fetch, h])]; simp [internal, h, advance]

/-- With an empty schedule the sequencer moves and nothing else changes. -/
theorem step_of_nil (h : s.turns = []) :
    step s =
      match s.st with
      | .idle => .next s
      | .lock => execLock s
      | .check => .next (seqCheck s)
      | .reset => execReset s
      | .write => execWrite s
      | .cmdCrc => execReadByte s
      | .block => execReadBlock s
      | .dataCrc => execReadByte s
      | .parse => .next (seqParse s)
      | .store => .next (seqStore s)
      | .exit => execUnlock s := by
  have ht : s.turn = .seq := by simp [State.turn, h]
  rw [step_seq ht, State.endTurn_of_nil h]

/-! ### A run of several steps -/

theorem run_succ {M : Host.Core} {s t : M.State} (n : Nat) (h : M.step s = .next t) : M.run (n + 1) s = M.run n t := by
  rw [Host.Core.run, h]

theorem run_add {M : Host.Core} {s t : M.State} (m n : Nat) (h : M.run m s = .next t) : M.run (m + n) s = M.run n t := by
  induction m generalizing s with
  | zero => rw [Nat.zero_add]; cases h; rfl
  | succ m ih =>
    rw [Nat.add_right_comm]
    cases hs : M.step s with
    | next u => rw [run_succ _ hs] at h ⊢; exact ih h
    | fault r => rw [Host.Core.run, hs] at h; cases h
    | refused r => rw [Host.Core.run, hs] at h; cases h

theorem core_run_zero : Host.Core.run Sys2Proof.core 0 s = .next s := rfl

theorem core_run_succ {t : State} (n : Nat) (h : step s = .next t) :
    Host.Core.run Sys2Proof.core (n + 1) s = Host.Core.run Sys2Proof.core n t :=
  run_succ (M := Sys2Proof.core) n h

/-- A run in two parts. -/
theorem core_run_add {t : State} (m n : Nat) (h : Host.Core.run Sys2Proof.core m s = .next t) :
    Host.Core.run Sys2Proof.core (m + n) s = Host.Core.run Sys2Proof.core n t :=
  run_add (M := Sys2Proof.core) m n h

/-- A state that a step leaves alone stays for ever. -/
theorem core_run_fixed (h : step s = .next s) (n : Nat) : Host.Core.run Sys2Proof.core n s = .next s := by
  induction n with
  | zero => rfl
  | succ n ih => rw [core_run_succ n h, ih]

end Sys2Proof.Machine
end

