-- ==== Sys2Proof/Laws/StepCases.lean ====
section
/-! SUPPORT. The inversion lemma of a step: everything one step of the machine can do, said once. An invariant is then a
case analysis over `StepCase`. -/

namespace Sys2Proof.Machine

/-- Everything a step from `s` can do, each case with the condition it needs and the whole next state. -/
inductive StepCase (s : State) : State → Prop where
  | hostNone (ctx : Nat) (hturn : s.turn = .host ctx) (hcode : s.hostCode ctx = none) :
    StepCase s { s with turns := s.turns.tail }
  | attachHeld (ctx : Nat) (ps : List (Nat × HcCode)) (hturn : s.turn = .host ctx) (hcode : s.hostCode ctx = some 0#2)
    (hbusy : s.busy = true) :
    StepCase s { s with turns := s.turns.tail, issuer := ctx, programs := ps,
                        held := if ctx ∈ s.held then s.held else s.held ++ [ctx] }
  | attachAccepted (ctx : Nat) (ps : List (Nat × HcCode)) (hturn : s.turn = .host ctx)
    (hcode : s.hostCode ctx = some 0#2) (hbusy : s.busy = false) :
    StepCase s { s with turns := s.turns.tail, issuer := ctx, programs := ps, busy := true, retry := 5#3, st := .lock,
                        server := ctx, held := s.held.erase ctx }
  | detach (ctx : Nat) (ps : List (Nat × HcCode)) (hturn : s.turn = .host ctx) (hcode : s.hostCode ctx = some 1#2) :
    StepCase s { s with turns := s.turns.tail, issuer := ctx, programs := ps, identity := none,
                        answers := s.answers ++ [(ctx, .done)] }
  | hasIdentity (ctx : Nat) (ps : List (Nat × HcCode)) (hturn : s.turn = .host ctx)
    (hcode : s.hostCode ctx = some 2#2) :
    StepCase s { s with turns := s.turns.tail, issuer := ctx, programs := ps,
                        answers := s.answers ++ [(ctx, .bit s.identity.isSome)] }
  | classification (ctx : Nat) (ps : List (Nat × HcCode)) (hturn : s.turn = .host ctx)
    (hcode : s.hostCode ctx = some 3#2) :
    StepCase s { s with turns := s.turns.tail, issuer := ctx, programs := ps,
                        answers := s.answers ++ [(ctx, .code s.classification)] }
  | seqNothing (hturn : s.turn = .seq ∨ s.turn = .frame)
    (hwhy : s.st = .idle ∨ s.turn = .frame ∧ s.st ≠ .write ∨ ¬s.answerReady) :
    StepCase s { s with turns := s.turns.tail }
  | lockGranted (hturn : s.turn = .seq) (hst : s.st = .lock) (hstalled : s.stalled = false)
    (hfree : s.otherOwns = false) :
    StepCase s { s with turns := s.turns.tail, busTrace := s.busTrace ++ [.lock], st := .check }
  | checkEmpty (hturn : s.turn = .seq) (hst : s.st = .check) (hretry : s.retry = 0#3) :
    StepCase s { s with turns := s.turns.tail, diagTrace := s.diagTrace ++ [4#3], res := 4#3, st := .exit }
  | checkGo (hturn : s.turn = .seq) (hst : s.st = .check) (hretry : s.retry ≠ 0#3) :
    StepCase s { s with turns := s.turns.tail, st := .reset }
  | resetPresent (ps : List Presence) (hturn : s.turn = .seq) (hst : s.st = .reset) (hstalled : s.stalled = false)
    (hp : s.presences = .present :: ps) :
    StepCase s { s with turns := s.turns.tail, presences := ps, busTrace := s.busTrace ++ [.reset], st := .write }
  | resetAbsent (ps : List Presence) (hturn : s.turn = .seq) (hst : s.st = .reset) (hstalled : s.stalled = false)
    (hp : s.presences = .absent :: ps) :
    StepCase s { s with turns := s.turns.tail, presences := ps, busTrace := s.busTrace ++ [.reset],
                        diagTrace := s.diagTrace ++ [1#3], retry := s.retry - 1#3, st := .check }
  | write (hturn : s.turn = .seq ∨ s.turn = .frame) (hst : s.st = .write) (hstalled : s.stalled = false) :
    StepCase s { s with turns := s.turns.tail, busTrace := s.busTrace ++ [.write commandFrame], st := .cmdCrc }
  | echoOk (bs : List Byte) (hturn : s.turn = .seq) (hst : s.st = .cmdCrc) (hstalled : s.stalled = false)
    (hb : s.bytesIn = 0x8D#8 :: bs) :
    StepCase s { s with turns := s.turns.tail, bytesIn := bs, busTrace := s.busTrace ++ [.readByte], crcb := 0x8D#8,
                        st := .block }
  | echoBad (b : Byte) (bs : List Byte) (hturn : s.turn = .seq) (hst : s.st = .cmdCrc) (hstalled : s.stalled = false)
    (hb : s.bytesIn = b :: bs) (hne : b ≠ 0x8D#8) :
    StepCase s { s with turns := s.turns.tail, bytesIn := bs, busTrace := s.busTrace ++ [.readByte], crcb := b,
                        diagTrace := s.diagTrace ++ [2#3], retry := s.retry - 1#3, st := .check }
  | block (r : Block) (rs : List Block) (hturn : s.turn = .seq) (hst : s.st = .block) (hstalled : s.stalled = false)
    (hr : s.blocksIn = r :: rs) :
    StepCase s { s with turns := s.turns.tail, blocksIn := rs, busTrace := s.busTrace ++ [.readBlock 128],
                        record := Memory.ofBlock r, st := .dataCrc }
  | payloadOk (b : Byte) (bs : List Byte) (hturn : s.turn = .seq) (hst : s.st = .dataCrc)
    (hstalled : s.stalled = false) (hb : s.bytesIn = b :: bs) (heq : b = crc8 s.record.bytes) :
    StepCase s { s with turns := s.turns.tail, bytesIn := bs, busTrace := s.busTrace ++ [.readByte], crcb := b,
                        st := .parse }
  | payloadBad (b : Byte) (bs : List Byte) (hturn : s.turn = .seq) (hst : s.st = .dataCrc)
    (hstalled : s.stalled = false) (hb : s.bytesIn = b :: bs) (hne : b ≠ crc8 s.record.bytes) :
    StepCase s { s with turns := s.turns.tail, bytesIn := bs, busTrace := s.busTrace ++ [.readByte], crcb := b,
                        diagTrace := s.diagTrace ++ [3#3], retry := s.retry - 1#3, st := .check }
  | parseOk (hturn : s.turn = .seq) (hst : s.st = .parse) (hmagic : magic s.record = 0xE54C21ED#32) :
    StepCase s { s with turns := s.turns.tail, st := .store }
  | parseBad (hturn : s.turn = .seq) (hst : s.st = .parse) (hmagic : magic s.record ≠ 0xE54C21ED#32) :
    StepCase s { s with turns := s.turns.tail, diagTrace := s.diagTrace ++ [5#3], res := 5#3, st := .exit }
  | store (hturn : s.turn = .seq) (hst : s.st = .store) :
    StepCase s { s with turns := s.turns.tail, identity := some (identifier s.cfg s.record), res := 0#3, st := .exit }
  | exit (hturn : s.turn = .seq) (hst : s.st = .exit) (hstalled : s.stalled = false) :
    StepCase s { s with turns := s.turns.tail, busTrace := s.busTrace ++ [.unlock],
                        answers := s.answers ++ [(s.server, .err s.res)], busy := false, st := .idle }
  | otherTakes (hturn : s.turn = .otherTakes) (hfree : s.holdsLock = false) :
    StepCase s { s with turns := s.turns.tail, otherOwns := true }
  | otherTakesNot (hturn : s.turn = .otherTakes) (hheld : s.holdsLock = true) :
    StepCase s { s with turns := s.turns.tail }
  | otherReleases (hturn : s.turn = .otherReleases) : StepCase s { s with turns := s.turns.tail, otherOwns := false }
  | busStalls (hturn : s.turn = .busStalls) : StepCase s { s with turns := s.turns.tail, stalled := true }
  | busResumes (hturn : s.turn = .busResumes) : StepCase s { s with turns := s.turns.tail, stalled := false }
  | resetHolding (hturn : s.turn = .reset) (hheld : s.holdsLock = true) :
    StepCase s { s with turns := s.turns.tail, busTrace := s.busTrace ++ [.unlock], identity := none, busy := false,
                        st := .idle, retry := 0#3, record := [], crcb := 0, res := 0#3 }
  | resetFree (hturn : s.turn = .reset) (hfree : s.holdsLock = false) :
    StepCase s { s with turns := s.turns.tail, identity := none, busy := false, st := .idle, retry := 0#3, record := [],
                        crcb := 0, res := 0#3 }

variable {s t : State}

/-- The codes of the command port. -/
theorem hcCode_cases (op : HcCode) : op = 0 ∨ op = 1 ∨ op = 2 ∨ op = 3 := by revert op; decide

/-- A context's turn. -/
theorem step_cases_host {ctx : Nat} (ht : s.turn = .host ctx) (h : step s = .next t) : StepCase s t := by
  rcases hc : s.hostCode ctx with _ | op
  · rw [step_host_none ht hc] at h
    cases h
    exact .hostNone ctx ht hc
  · have hp : s.endTurn.present ctx =
        { s with turns := s.turns.tail, issuer := ctx,
                 programs := if ctx ∈ s.held then s.programs else dropCode s.programs ctx } := by
      simp only [State.present, show s.endTurn.hostCode ctx = some op from hc]
      rfl
    rw [step_host ht hc, hp] at h
    rcases hcCode_cases op with rfl | rfl | rfl | rfl
    all_goals
      first
      | rw [show decodeHc 0 = .attach from rfl] at h
      | rw [show decodeHc 1 = .detach from rfl] at h
      | rw [show decodeHc 2 = .hasIdentity from rfl] at h
      | rw [show decodeHc 3 = .classification from rfl] at h
    · rcases execAttach_next.1 h with ⟨hb, rfl⟩ | ⟨hb, rfl⟩
      · exact .attachHeld ctx _ ht hc hb
      · exact .attachAccepted ctx _ ht hc hb
    · rw [execDetach_next.1 h]; exact .detach ctx _ ht hc
    · rw [execHasIdentity_next.1 h]; exact .hasIdentity ctx _ ht hc
    · rw [execClassification_next.1 h, show ∀ u : State, ∀ n ps ts,
        State.classification { u with turns := ts, issuer := n, programs := ps } = u.classification from
        fun _ _ _ _ => rfl]
      exact .classification ctx _ ht hc

/-- READ_BYTE in the sequencer's turn. -/
theorem step_cases_readByte (ht : s.turn = .seq) (h : execReadByte s.endTurn = .next t) : StepCase s t := by
  rcases execReadByte_next.1 h with ⟨hst, hs, b, bs, hb, he⟩ | ⟨hst, hs, b, bs, hb, he⟩ | ⟨hst, hw, he⟩
  · rw [he, State.afterEchoByte_eq]
    split
    · next hok => subst hok; exact .echoOk bs ht hst hs hb
    · next he => exact .echoBad b bs ht hst hs hb he
  · rw [he, State.afterPayloadByte_eq]
    split
    · next he => exact .payloadOk b bs ht hst hs hb he
    · next he => exact .payloadBad b bs ht hst hs hb he
  · rw [he]
    refine .seqNothing (.inl ht) (.inr (.inr fun hr => ?_))
    rcases hw with hw | hw
    · exact absurd (hw.symm.trans hr.1) (by decide)
    · exact hr.2.2.2.1 hst hw

/-- WRITE, under either of its names. -/
theorem step_cases_write (ht : s.turn = .seq ∨ s.turn = .frame) (h : execWrite s.endTurn = .next t) : StepCase s t := by
  obtain ⟨hst, ⟨hs, rfl⟩ | ⟨hw, rfl⟩⟩ := execWrite_next.1 h
  · exact .write ht hst hs
  · exact .seqNothing ht (.inr (.inr fun hr => absurd (hw.symm.trans hr.1) (by decide)))

/-- The sequencer's turn. -/
theorem step_cases_seq (ht : s.turn = .seq) (h : step s = .next t) : StepCase s t := by
  rw [step_seq ht] at h
  cases hst : s.st <;> rw [hst] at h <;> dsimp only at h
  · cases h; exact .seqNothing (.inl ht) (.inl hst)
  · obtain ⟨-, ⟨hg, rfl⟩ | ⟨hg, rfl⟩⟩ := execLock_next.1 h
    · obtain ⟨h1, h2⟩ := State.lockGranted_iff.1 hg
      exact .lockGranted ht hst h1 h2
    · refine .seqNothing (.inl ht) (.inr (.inr fun hr => ?_))
      exact absurd (State.lockGranted_iff.2 ⟨hr.1, hr.2.1 hst⟩) (by rw [show s.lockGranted = false from hg]; decide)
  · cases h
    rw [seqCheck_eq]
    split
    · next hr => exact .checkEmpty ht hst hr
    · next hr => exact .checkGo ht hst hr
  · obtain ⟨-, ⟨hs, p, ps, hp, rfl⟩ | ⟨hw, rfl⟩⟩ := execReset_next.1 h
    · rw [State.afterReset_eq]
      cases p
      · exact .resetPresent ps ht hst hs hp
      · exact .resetAbsent ps ht hst hs hp
    · refine .seqNothing (.inl ht) (.inr (.inr fun hr => ?_))
      rcases hw with hw | hw
      · exact absurd (hw.symm.trans hr.1) (by decide)
      · exact hr.2.2.1 hst hw
  · exact step_cases_write (.inl ht) h
  · exact step_cases_readByte ht h
  · obtain ⟨-, ⟨hs, r, rs, hr, rfl⟩ | ⟨hw, rfl⟩⟩ := execReadBlock_next.1 h
    · exact .block r rs ht hst hs hr
    · refine .seqNothing (.inl ht) (.inr (.inr fun hr => ?_))
      rcases hw with hw | hw
      · exact absurd (hw.symm.trans hr.1) (by decide)
      · exact hr.2.2.2.2 hst hw
  · exact step_cases_readByte ht h
  · cases h
    rw [seqParse_eq]
    split
    · next hm => exact .parseOk ht hst hm
    · next hm => exact .parseBad ht hst hm
  · cases h
    rw [seqStore_eq]
    exact .store ht hst
  · obtain ⟨-, ⟨hs, rfl⟩ | ⟨hw, rfl⟩⟩ := execUnlock_next.1 h
    · exact .exit ht hst hs
    · exact .seqNothing (.inl ht) (.inr (.inr fun hr => absurd (hw.symm.trans hr.1) (by decide)))

/-- If a step answers a next state, one of the cases of `StepCase` holds. -/
theorem step_cases (h : step s = .next t) : StepCase s t := by
  cases ht : s.turn with
  | host ctx => exact step_cases_host ht h
  | seq => exact step_cases_seq ht h
  | frame =>
    rw [step_frame ht] at h
    split at h
    · exact step_cases_write (.inr ht) (execReadRecordFrame_eq ▸ h)
    · next hst => cases h; exact .seqNothing (.inr ht) (.inr (.inl ⟨ht, hst⟩))
  | otherTakes =>
    rw [step_otherTakes ht] at h
    cases h
    cases hl : s.holdsLock
    · have he : s.endTurn.otherTakesBus = { s with turns := s.turns.tail, otherOwns := true } := by
        rw [State.otherTakesBus, show s.endTurn.holdsLock = false from hl]; rfl
      rw [he]; exact .otherTakes ht hl
    · have he : s.endTurn.otherTakesBus = { s with turns := s.turns.tail } := by
        rw [State.otherTakesBus, show s.endTurn.holdsLock = true from hl]; rfl
      rw [he]; exact .otherTakesNot ht hl
  | otherReleases => rw [step_otherReleases ht] at h; cases h; exact .otherReleases ht
  | busStalls => rw [step_busStalls ht] at h; cases h; exact .busStalls ht
  | busResumes => rw [step_busResumes ht] at h; cases h; exact .busResumes ht
  | reset =>
    rw [step_reset ht] at h
    cases h
    cases hl : s.holdsLock
    · have he : s.endTurn.resetEvent =
          { s with turns := s.turns.tail, identity := none, busy := false, st := .idle, retry := 0#3, record := [],
                   crcb := 0, res := 0#3 } := by
        rw [State.resetEvent, show s.endTurn.holdsLock = false from hl]; rfl
      rw [he]; exact .resetFree ht hl
    · have he : s.endTurn.resetEvent =
          { s with turns := s.turns.tail, busTrace := s.busTrace ++ [.unlock], identity := none, busy := false,
                   st := .idle, retry := 0#3, record := [], crcb := 0, res := 0#3 } := by
        rw [State.resetEvent, show s.endTurn.holdsLock = true from hl]; rfl
      rw [he]; exact .resetHolding ht hl

end Sys2Proof.Machine
end

