-- ==== Sys2Proof/Tests/Slice0.lean ====
section
/-! SUPPORT. Tests and witnesses. Every expected value of a test is taken from the spec: the encoding tables of
spec/30_encoding.md and the vectors V<n> and programs P<n> of spec/95_test_vectors.md, named beside it. A witness shows a
concrete state and operands that meet all hypotheses of one obligation (or of one of its clauses) together. -/

namespace Sys2Proof.Tests

open Sys2Proof.Machine

/-! ## Helpers -/

/-- The outcome is a next state with a property. -/
def nextWith (o : Host.Outcome State Fault Refusal) (p : State → Bool) : Bool :=
  match o with
  | .next t => p t
  | .fault _ => false
  | .refused _ => false

/-- `CFG_ALT` of spec/95_test_vectors.md 2.1. -/
def cfgAlt : Config where
  offIdLow := 127
  offIdHigh := 64
  tableRest := synRest
  ok := by decide

/-- A record given by its first bytes; the rest is the fill. -/
def recordOf (fill : Byte) (bytes : List Byte) : Block :=
  ⟨((bytes ++ List.replicate 128 fill).take 128).toArray, by simp⟩

def recA : Block := recordOf 0 [0xED, 0x21, 0x4C, 0xE5, 0x65, 0, 0, 0, 0x94, 0x13, 0x10]
def recB : Block := recordOf 0 [0xED, 0x21, 0x4C, 0xE5, 0xAA, 0, 0, 0, 0xAC, 0xCA, 0xAA]
def recBadMagic : Block := recordOf 0 [0xEC, 0x21, 0x4C, 0xE5, 0x65, 0, 0, 0, 0x94, 0x13, 0x10]
def recSwap : Block := recordOf 0 [0xE5, 0x4C, 0x21, 0xED, 0x65, 0, 0, 0, 0x94, 0x13, 0x10]
def recAltA : Block :=
  recordOf 0 ([0xED, 0x21, 0x4C, 0xE5] ++ List.replicate 60 0 ++ [0x94, 0x13, 0x10] ++ List.replicate 60 0 ++ [0x65])
def recAFill : Block := recordOf 0xFF [0xED, 0x21, 0x4C, 0xE5, 0x65, 0xFF, 0xFF, 0xFF, 0x94, 0x13, 0x10]

/-- The reset state under `CFG_REF`. -/
def s0 : State := { State.reset with cfg := Config.ref }

/-- In the middle of an attach, at a given state of the sequencer, with the whole budget. -/
def at' (x : SeqState) : State := { s0 with st := x, busy := true, retry := 5 }

/-- V20 after its `S_DATACRC` step. -/
def parsing : State :=
  { at' .parse with
    record := Memory.ofBlock recA, crcb := 0xAE, server := 1, held := [2],
    busTrace := [.lock, .reset, .write commandFrame, .readByte, .readBlock 128, .readByte] }

/-! ## WellFormed: for each check, an ill-formed term that it refuses -/

theorem test_wf_lowBelow : ¬ConfigData.wf { offIdLow := 3, offIdHigh := 8, tableRest := synRest } := by decide
theorem test_wf_lowAbove : ¬ConfigData.wf { offIdLow := 128, offIdHigh := 8, tableRest := synRest } := by decide
theorem test_wf_highBelow : ¬ConfigData.wf { offIdLow := 8, offIdHigh := 3, tableRest := synRest } := by decide
theorem test_wf_highAbove : ¬ConfigData.wf { offIdLow := 8, offIdHigh := 126, tableRest := synRest } := by decide
theorem test_wf_overlap : ¬ConfigData.wf { offIdLow := 10, offIdHigh := 8, tableRest := synRest } := by decide
theorem test_wf_sevenRows : ¬ConfigData.wf { offIdLow := 4, offIdHigh := 8, tableRest := synRest.tail } := by decide
theorem test_wf_knownKey :
    ¬ConfigData.wf { offIdLow := 4, offIdHigh := 8, tableRest := (0x10139465, 0) :: synRest.tail } := by decide
theorem test_wf_twoEqualKeys :
    ¬ConfigData.wf { offIdLow := 4, offIdHigh := 8, tableRest := (2, 0) :: synRest.tail } := by decide
theorem test_wf_adjacentFields : ConfigData.wf { offIdLow := 127, offIdHigh := 124, tableRest := synRest } := by decide
theorem test_wf_writePayload : BusRequest.wf (.write [0xCC, 0xF0, 0x00, 0x01]) = false := by decide
theorem test_wf_blockLength : BusRequest.wf (.readBlock 127) = false := by decide
theorem test_wf_errCode : errCodeWf 6 = false ∧ errCodeWf 7 = false ∧ errCodeWf 5 = true := by decide
theorem test_wf_attachCode : [1, 2, 3, 6, 7].all (fun c => !attachCodeWf c) = true := by decide
theorem test_wf_diagCode : diagCodeWf 0 = false ∧ diagCodeWf 6 = false ∧ diagCodeWf 5 = true := by decide
theorem test_wf_everyInstr :
    [Instr.attach, .detach, .hasIdentity, .classification, .lock, .reset, .write, .readByte, .readBlock, .unlock,
      .readRecordFrame].all Instr.wf = true := by decide

/-! ## Decode: words from spec/30_encoding.md R71 to R73 (V90 to V93) -/

theorem test_decode_attach : decode .hc [0b00] = .ok (.attach, []) := by decide
theorem test_decode_detach : decode .hc [0b01] = .ok (.detach, []) := by decide
theorem test_decode_hasIdentity : decode .hc [0b10] = .ok (.hasIdentity, []) := by decide
theorem test_decode_classification : decode .hc [0b11] = .ok (.classification, []) := by decide
theorem test_decode_lock : decode .br [0b000] = .ok (.lock, []) := by decide
theorem test_decode_reset : decode .br [0b001] = .ok (.reset, []) := by decide
theorem test_decode_write : decode .br [0b010] = .ok (.write, []) := by decide
theorem test_decode_readByte : decode .br [0b011] = .ok (.readByte, []) := by decide
theorem test_decode_readBlock : decode .br [0b100] = .ok (.readBlock, []) := by decide
theorem test_decode_unlock : decode .br [0b101] = .ok (.unlock, []) := by decide
theorem test_decode_frame :
    decode .w1 [0b11001100, 0b11110000, 0b00000000, 0b00000000, 0x8D] = .ok (.readRecordFrame, [0x8D]) := by decide

/-- R79: the reserved encodings; a code wider than its port; bytes that end too soon. -/
theorem test_decode_rejects :
    decode .br [0b110] = .error (.reservedRequest 6) ∧ decode .br [0b111] = .error (.reservedRequest 7) ∧
      decode .w1 [0xCC, 0xF0, 0x00, 0x01] = .error (.unknownFrame 0xCC 0xF0 0x00 0x01) ∧
      decode .w1 [0x33, 0xF0, 0x00, 0x00] = .error (.unknownFrame 0x33 0xF0 0x00 0x00) ∧
      decode .hc [4] = .error (.codeTooWide .hc 4) ∧ decode .br [8] = .error (.codeTooWide .br 8) ∧
      decode .w1 [0xCC, 0xF0, 0x00] = .error (.tooFewBytes .w1) ∧ decode .hc [] = .error (.tooFewBytes .hc) := by
  decide

/-- V93: the codes of the fault kinds. -/
theorem test_errCodes :
    [Err.ok, .busResetFailure, .commandCrcMismatch, .payloadCrcMismatch, .retriesExhausted, .invalidMagic].map Err.code =
      [0, 1, 2, 3, 4, 5] := by decide

/-- P1, P2, P3: the encoding of a host program. -/
theorem test_programWord :
    programWord [2, 3, 0, 2, 3, 1, 2, 3] = 0xB2DB ∧ programWord [0, 2, 3] = 0x0B ∧ programWord [0, 2, 3, 0, 3] = 0x0B3 :=
  by decide

theorem test_decodeProgram : decodeProgram [0, 2, 3] = [.attach, .hasIdentity, .classification] := by decide

/-- The rows of the opcode table, by their words: 2, 3 and 32 bits (R84), and whole bytes (log entry 2). -/
theorem test_decodeTableWord :
    decodeTableWord 2 0b11 = some .classification ∧ decodeTableWord 3 0b011 = some .readByte ∧
      decodeTableWord 8 0b100 = some .readBlock ∧ decodeTableWord 8 0b00 = some .attach ∧
      decodeTableWord 8 0b110 = none ∧ decodeTableWord 32 0xCCF00000 = some .readRecordFrame ∧
      decodeTableWord 32 0x0000F0CC = none := by decide

/-- Each row runs as the very first instruction after reset: its own effect is seen. -/
theorem test_firstAfterReset_host :
    nextWith (step (State.reset.withFetchWord 2 0)) (fun t => t.busy && decide (t.st = .lock)) = true ∧
      nextWith (step (State.reset.withFetchWord 2 1)) (fun t => decide (t.answers = [(1, .done)])) = true ∧
      nextWith (step (State.reset.withFetchWord 2 2)) (fun t => decide (t.answers = [(1, .bit false)])) = true ∧
      nextWith (step (State.reset.withFetchWord 2 3)) (fun t => decide (t.answers = [(1, .code 0)])) = true := by
  decide

theorem test_firstAfterReset_bus :
    nextWith (step (State.reset.withFetchWord 3 0)) (fun t => decide (t.busTrace = [.lock])) = true ∧
      nextWith (step (State.reset.withFetchWord 3 1)) (fun t => decide (t.busTrace = [.reset])) = true ∧
      nextWith (step (State.reset.withFetchWord 3 2)) (fun t => decide (t.busTrace = [.write commandFrame])) = true ∧
      nextWith (step (State.reset.withFetchWord 3 3)) (fun t => decide (t.busTrace = [.readByte])) = true ∧
      nextWith (step (State.reset.withFetchWord 3 4)) (fun t => decide (t.busTrace = [.readBlock 128])) = true ∧
      nextWith (step (State.reset.withFetchWord 3 5)) (fun t => decide (t.busTrace = [.unlock])) = true ∧
      nextWith (step (State.reset.withFetchWord 32 0xCCF00000)) (fun t => decide (t.busTrace = [.write commandFrame])) =
        true := by
  decide +kernel

/-! ## CRC-8: V1 to V18, and the records' CRCs of spec/95_test_vectors.md 2.2 -/

theorem test_crc_bytes :
    crc8 [] = 0x00 ∧ crc8 [0x00] = 0x00 ∧ crc8 [0x01] = 0x5E ∧ crc8 [0x80] = 0x8C ∧ crc8 [0xFF] = 0x35 := by decide
theorem test_crc_checkString : crc8 [0x31, 0x32, 0x33, 0x34, 0x35, 0x36, 0x37, 0x38, 0x39] = 0xA1 := by decide +kernel
theorem test_crc_sevenBytes : crc8 [0x02, 0x1C, 0xB8, 0x01, 0x00, 0x00, 0x00] = 0xA2 := by decide +kernel
theorem test_crc_magic : crc8 [0xED, 0x21, 0x4C, 0xE5] = 0xEB := by decide +kernel
theorem test_crc_serialForm :
    crcSerial [0x31, 0x32, 0x33, 0x34, 0x35, 0x36, 0x37, 0x38, 0x39] = 0xA1 ∧ crcSerial [0x80] = 0x8C := by decide +kernel

/-- `crc8` with the register evaluated after each byte, so that the kernel's evaluation of a whole record stays shallow. -/
def crcForced : List Byte → Byte → Byte
  | [], c => c
  | b :: bs, c => if (crcByte c b).getLsbD 0 then crcForced bs (crcByte c b) else crcForced bs (crcByte c b)

theorem crc8_eq_crcForced (bs : List Byte) : crc8 bs = crcForced bs crcInit := by
  have h : ∀ (bs : List Byte) (c : Byte), bs.foldl crcByte c = crcForced bs c := by
    intro bs
    induction bs with
    | nil => intro c; rfl
    | cons b bs ih => intro c; simp [crcForced, ih]
  exact h bs crcInit

theorem test_crc_recA : crc8 recA.toList = 0xAE := by rw [crc8_eq_crcForced]; decide +kernel
theorem test_crc_recAFill : crc8 recAFill.toList = 0xF4 := by rw [crc8_eq_crcForced]; decide +kernel
theorem test_crc_recAltA : crc8 recAltA.toList = 0x51 := by rw [crc8_eq_crcForced]; decide +kernel

/-! ## The parser and the table: section 2.2, V40 to V48 -/

theorem test_magic :
    magic (Memory.ofBlock recA) = 0xE54C21ED ∧ magic (Memory.ofBlock recSwap) = 0xED214CE5 ∧
      magic (Memory.ofBlock recBadMagic) = 0xE54C21EC := by decide +kernel
theorem test_identifier_ref :
    identifier Config.ref (Memory.ofBlock recA) = 0x10139465 ∧ identifier Config.ref (Memory.ofBlock recB) = 0xAACAACAA ∧
      identifier Config.ref (Memory.ofBlock recAltA) = 0 := by decide +kernel
theorem test_identifier_alt :
    identifier cfgAlt (Memory.ofBlock recAltA) = 0x10139465 ∧ identifier cfgAlt (Memory.ofBlock recA) = 0 ∧
      identifier cfgAlt (Memory.ofBlock recAFill) = 0xFFFFFFFF := by decide +kernel
theorem test_cls_known :
    cls Config.ref 0x10139465 = 0x00030000 ∧ cls Config.ref 0xAACAACAA = 0x00040000 ∧
      cls Config.ref 0x10139462 = 0x00060000 := by decide
theorem test_cls_near :
    [0x10139464, 0x10139466, 0x10139365, 0x90139465, 0x12345678, 0, 0xFFFFFFFF].all (fun v => cls Config.ref v == 0) =
      true := by decide
theorem test_cls_rest :
    cls Config.ref 4 = 0x00030000 ∧ cls Config.ref 7 = 0 ∧ cls Config.ref 8 = 0x80000000 := by decide

/-! ## Memory: canonical form -/

theorem test_memory_write_unlisted : Memory.write [(3, 1), (5, 2)] 3 0 = [(5, 2)] := by decide
theorem test_memory_notWf :
    Memory.wf [(5, 1), (3, 1)] = false ∧ Memory.wf [(3, 0)] = false ∧ Memory.wf [(128, 1)] = false := by decide

/-! ## One step of each instruction, on small states -/

/-- V20: acceptance. -/
theorem test_attach_accepted :
    nextWith (exec .attach s0) (fun t => t.busy && decide (t.retry = 5) && decide (t.st = .lock) && decide (t.answers = [])) =
      true := by decide
/-- P8, order 5: held. -/
theorem test_attach_held :
    nextWith (exec .attach { at' .check with issuer := 2, server := 1 })
      (fun t => decide (t.held = [2]) && decide (t.server = 1) && decide (t.st = .check)) = true := by decide
/-- V75 and, during an attach, P8 order 3. -/
theorem test_detach :
    nextWith (exec .detach { at' .check with identity := some 0x10139462, retry := 4 })
      (fun t => decide (t.identity = none) && decide (t.retry = 4) && decide (t.st = .check)) = true := by decide
/-- V70, V78. -/
theorem test_hasIdentity :
    nextWith (exec .hasIdentity s0) (fun t => decide (t.answers = [(0, .bit false)])) = true ∧
      nextWith (exec .hasIdentity { s0 with identity := some 0 }) (fun t => decide (t.answers = [(0, .bit true)])) = true := by
  decide
/-- V71, V79. -/
theorem test_classification :
    nextWith (exec .classification s0) (fun t => decide (t.answers = [(0, .code 0)])) = true ∧
      nextWith (exec .classification { s0 with identity := some 8 })
        (fun t => decide (t.answers = [(0, .code 0x80000000)])) = true := by decide
theorem test_lock_waits :
    nextWith (exec .lock { at' .lock with otherOwns := true }) (fun t => decide (t.st = .lock) && decide (t.busTrace = [])) =
      true := by decide
/-- V24: the fifth ABSENT. -/
theorem test_reset_absent :
    nextWith (exec .reset { at' .reset with retry := 1, presences := [.absent] })
      (fun t => decide (t.retry = 0) && decide (t.st = .check) && decide (t.diagTrace = [1])) = true := by decide
theorem test_write :
    nextWith (exec .write (at' .write))
      (fun t => decide (t.busTrace = [.write [0xCC, 0xF0, 0x00, 0x00]]) && decide (t.st = .cmdCrc)) = true := by decide
theorem test_frame :
    nextWith (exec .readRecordFrame (at' .write)) (fun t => decide (t.busTrace = [.write [0xCC, 0xF0, 0x00, 0x00]])) =
      true := by decide
/-- V22: `b:8C` faults. -/
theorem test_readByte_echo :
    nextWith (exec .readByte { at' .cmdCrc with bytesIn := [0x8C] })
      (fun t => decide (t.st = .check) && decide (t.retry = 4) && decide (t.diagTrace = [2]) && decide (t.crcb = 0x8C)) =
      true := by decide +kernel
theorem payload_passes (m : Memory) (b : Byte) (h : b = crc8 m.bytes) :
    nextWith (exec .readByte { at' .dataCrc with record := m, bytesIn := [b] })
      (fun t => decide (t.st = .parse) && decide (t.retry = 5)) = true := by
  have he := (execReadByte_next (s := { at' .dataCrc with record := m, bytesIn := [b] })).2
    (.inr (.inl ⟨rfl, rfl, b, [], rfl, rfl⟩))
  rw [show ∀ s, exec .readByte s = execReadByte s from fun _ => rfl, he, State.afterPayloadByte_eq, if_pos h]
  rfl
/-- V20: `blk:REC_A b:AE` passes. -/
theorem test_readByte_payload :
    nextWith (exec .readByte { at' .dataCrc with record := Memory.ofBlock recA, bytesIn := [0xAE] })
      (fun t => decide (t.st = .parse) && decide (t.retry = 5)) = true :=
  payload_passes _ _ (test_crc_recA.symm.trans (congrArg crc8 (Memory.bytes_ofBlock recA).symm))
theorem test_readBlock :
    nextWith (exec .readBlock { at' .block with blocksIn := [recA] })
      (fun t => decide (t.st = .dataCrc) && decide (t.record.read 0 = 0xED) && decide (t.record.read 10 = 0x10)) = true := by
  decide +kernel
/-- P4: the answer of the attach. -/
theorem test_unlock :
    nextWith (exec .unlock { at' .exit with res := 5, server := 3 })
      (fun t => decide (t.answers = [(3, .err 5)]) && !t.busy && decide (t.st = .idle)) = true := by decide
/-- V20: `S_STORE`. -/
theorem test_store :
    nextWith (step { parsing with st := .store })
      (fun t => decide (t.identity = some 0x10139465) && decide (t.res = 0) && decide (t.st = .exit)) = true := by
  decide +kernel
/-- V26: a wrong magic consumes no retry. -/
theorem test_parse_bad :
    nextWith (step { parsing with record := Memory.ofBlock recBadMagic })
      (fun t => decide (t.res = 5) && decide (t.diagTrace = [5]) && decide (t.retry = 5)) = true := by decide +kernel

/-! ## Reset: V95 to V97 -/

theorem test_reset_idle :
    nextWith (step { s0 with identity := some 0x10139465, turns := [.reset] })
      (fun t => decide (t.identity = none) && decide (t.busTrace = [])) = true := by decide
theorem test_reset_lockHeld :
    nextWith (step { parsing with st := .dataCrc, turns := [.reset] })
      (fun t => decide (t.busTrace.getLast? = some .unlock) && decide (t.st = .idle) && decide (t.answers = [])) = true := by
  decide +kernel
theorem test_reset_lockNotHeld :
    nextWith (step { at' .lock with turns := [.reset] }) (fun t => decide (t.busTrace = []) && !t.busy) = true := by decide

/-! ## Witnesses -/

theorem witness_DecodeEncodeAgree : ∃ (f : Format) (bytes rest : List Byte) (i : Instr), decode f bytes = .ok (i, rest) :=
  ⟨.br, [0b100, 7], [7], .readBlock, by decide⟩
theorem witness_ReservedEncodingsRejected : ∃ b0 b1 b2 b3 : Byte, [b0, b1, b2, b3] ≠ [0xCC, 0xF0, 0x00, 0x00] :=
  ⟨0xCC, 0xF0, 0x00, 0x01, by decide⟩
theorem witness_FaultCodesNumbered : ∃ (c : Code3) (e : Err), Err.ofCode c = some e := ⟨5, .invalidMagic, by decide⟩
theorem witness_ResetEventAbandonsAttach : ∃ s : State, s.turn = .reset ∧ s.busy = true ∧ s.holdsLock = true :=
  ⟨{ parsing with turns := [.reset] }, by decide⟩
theorem witness_AttachAcceptedWhenIdle : ∃ s : State, s.busy = false := ⟨s0, by decide⟩
theorem witness_AttachHeldWhileBusy : ∃ s : State, s.busy = true := ⟨at' .lock, by decide⟩
theorem witness_HeldAttachNotDropped : ∃ (s t : State) (ctx : Nat), ctx ∈ s.held ∧ step s = .next t :=
  ⟨{ at' .check with held := [2] }, _, 2, by decide, rfl⟩
theorem witness_HeldAttachAcceptedLater :
    ∃ (s : State) (ctx : Nat), s.turn = .host ctx ∧ ctx ∈ s.held ∧ s.busy = false :=
  ⟨{ s0 with held := [2], turns := [.host 2] }, 2, by decide⟩
theorem witness_ClassificationAnswersCls_some : ∃ (s : State) (v : Word32), s.identity = some v :=
  ⟨{ s0 with identity := some 0 }, 0, by decide⟩
theorem witness_ClassificationAnswersCls_none : ∃ s : State, s.identity = none := ⟨s0, by decide⟩
theorem witness_QueriesAndDetachFrame :
    ∃ (i : Instr) (s t : State), (i = .detach ∨ i = .hasIdentity ∨ i = .classification) ∧ exec i s = .next t :=
  ⟨.detach, parsing, _, by decide, rfl⟩
theorem witness_AttachFrame : ∃ s t : State, exec .attach s = .next t ∧ s.busy = true := ⟨parsing, _, rfl, by decide⟩
theorem witness_LockWaitsForGrant_granted : ∃ s : State, s.st = .lock ∧ s.stalled = false ∧ s.otherOwns = false :=
  ⟨at' .lock, by decide⟩
theorem witness_LockWaitsForGrant_owned : ∃ s : State, s.st = .lock ∧ s.otherOwns = true :=
  ⟨{ at' .lock with otherOwns := true }, by decide⟩
theorem witness_ResetTestsPresence_present :
    ∃ (s : State) (ps : List Presence), s.st = .reset ∧ s.stalled = false ∧ s.presences = .present :: ps :=
  ⟨{ at' .reset with presences := [.present] }, [], by decide⟩
theorem witness_ResetTestsPresence_absent :
    ∃ (s : State) (ps : List Presence), s.st = .reset ∧ s.stalled = false ∧ s.presences = .absent :: ps :=
  ⟨{ at' .reset with presences := [.absent] }, [], by decide⟩
theorem witness_WriteTransmitsFrame : ∃ s : State, s.st = .write ∧ s.stalled = false := ⟨at' .write, by decide⟩
theorem witness_FrameTransmitsItself : ∃ s : State, s.st = .write ∧ s.stalled = false := ⟨at' .write, by decide⟩
theorem witness_EchoByteChecked_ok :
    ∃ (s : State) (b : Byte) (bs : List Byte),
      s.st = .cmdCrc ∧ s.stalled = false ∧ s.bytesIn = b :: bs ∧ b = 0x8D#8 :=
  ⟨{ at' .cmdCrc with bytesIn := [0x8D] }, 0x8D, [], by decide⟩
theorem witness_EchoByteChecked_bad :
    ∃ (s : State) (b : Byte) (bs : List Byte),
      s.st = .cmdCrc ∧ s.stalled = false ∧ s.bytesIn = b :: bs ∧ b ≠ 0x8D#8 :=
  ⟨{ at' .cmdCrc with bytesIn := [0x8C] }, 0x8C, [], by decide⟩
theorem witness_BlockFillsRecord :
    ∃ (s : State) (r : Block) (rs : List Block), s.st = .block ∧ s.stalled = false ∧ s.blocksIn = r :: rs :=
  ⟨{ at' .block with blocksIn := [recA] }, recA, [], rfl, rfl, rfl⟩
theorem witness_PayloadByteChecked_ok :
    ∃ (s : State) (b : Byte) (bs : List Byte),
      s.st = .dataCrc ∧ s.stalled = false ∧ s.bytesIn = b :: bs ∧ b = crc8 ((List.range 128).map s.record.read) :=
  ⟨{ at' .dataCrc with bytesIn := [0xAE], record := Memory.ofBlock recA }, 0xAE, [], rfl, rfl, rfl,
    test_crc_recA.symm.trans (congrArg crc8 (Memory.bytes_ofBlock recA).symm)⟩
theorem witness_PayloadByteChecked_bad :
    ∃ (s : State) (b : Byte) (bs : List Byte),
      s.st = .dataCrc ∧ s.stalled = false ∧ s.bytesIn = b :: bs ∧ b ≠ crc8 ((List.range 128).map s.record.read) :=
  ⟨{ at' .dataCrc with bytesIn := [0xAF], record := Memory.ofBlock recA }, 0xAF, [], rfl, rfl, rfl,
    fun h => absurd (h.trans ((congrArg crc8 (Memory.bytes_ofBlock recA)).trans test_crc_recA)) (by decide)⟩
theorem witness_UnlockAnswersAttach : ∃ s : State, s.st = .exit ∧ s.stalled = false := ⟨at' .exit, by decide⟩
theorem witness_UnansweredRequestWaits_noAnswer : ∃ (i : Instr) (s : State), s.st ∈ Instr.issuedIn i ∧ ¬s.answerReady :=
  ⟨.readByte, at' .cmdCrc, by decide⟩
theorem witness_UnansweredRequestWaits_stalled : ∃ (i : Instr) (s : State), s.st ∈ Instr.issuedIn i ∧ ¬s.answerReady :=
  ⟨.unlock, { at' .exit with stalled := true }, by decide⟩
theorem witness_RequestsOnlyWhereIssued :
    ∃ (i : Instr) (s : State), i.format ≠ .hc ∧ s.st ∉ Instr.issuedIn i := ⟨.reset, at' .write, by decide⟩
theorem witness_BusRequestFrame : ∃ (i : Instr) (s t : State), i.format ≠ .hc ∧ exec i s = .next t ∧ t.st ≠ s.st :=
  ⟨.write, at' .write, _, by decide, rfl, by decide⟩
theorem witness_CheckTestsBudget_empty : ∃ s : State, s.turn = .seq ∧ s.st = .check ∧ s.retry = 0#3 :=
  ⟨{ at' .check with retry := 0 }, by decide⟩
theorem witness_CheckTestsBudget_left : ∃ s : State, s.turn = .seq ∧ s.st = .check ∧ s.retry ≠ 0#3 :=
  ⟨{ at' .check with retry := 1 }, by decide⟩
theorem witness_ParseTestsMagic_bad :
    ∃ s : State, s.turn = .seq ∧ s.st = .parse ∧
      s.record.read 3 ++ s.record.read 2 ++ s.record.read 1 ++ s.record.read 0 ≠ 0xE54C21ED#32 :=
  ⟨{ parsing with record := Memory.ofBlock recBadMagic }, by decide +kernel⟩
theorem witness_ParseTestsMagic_ok :
    ∃ s : State, s.turn = .seq ∧ s.st = .parse ∧
      s.record.read 3 ++ s.record.read 2 ++ s.record.read 1 ++ s.record.read 0 = 0xE54C21ED#32 :=
  ⟨parsing, by decide +kernel⟩
theorem witness_StoreWritesIdentity : ∃ s : State, s.turn = .seq ∧ s.st = .store :=
  ⟨{ parsing with st := .store }, by decide⟩
theorem witness_CrcLinear : ∃ xs ys : List Byte, xs.length = ys.length ∧ xs ≠ ys := ⟨[0x01, 0x02], [0x80, 0xFF], by decide⟩
theorem witness_PaddingNotInterpreted :
    ∃ (c : Config) (m m' : Memory), (∀ a ∈ parserOffsets c, m.read a = m'.read a) ∧ m ≠ m' :=
  ⟨Config.ref, [(5, 1)], [(5, 2)], by decide⟩
theorem witness_ClassificationTable :
    ∃ (c : Config) (v : Word32), v ≠ 0x10139465 ∧ v ≠ 0xAACAACAA ∧ v ≠ 0x10139462 ∧ ∀ row ∈ c.tableRest, row.1 ≠ v :=
  ⟨Config.ref, 0x10139464, by decide, by decide, by decide, by simp [Config.ref, synRest]⟩
theorem witness_ClassificationOrderFree :
    ∃ (c : Config) (rows : List Row), rows.Perm (clsRows c) ∧ rows ≠ clsRows c :=
  ⟨Config.ref, (clsRows Config.ref).reverse, List.reverse_perm _, fun h =>
    absurd (congrArg List.head? h) (by simp [clsRows, knownRows, Config.ref, synRest])⟩
theorem witness_StepRunsDecodedInstruction :
    ∃ (s : State) (f : Format) (bytes rest : List Byte) (i : Instr),
      fetch s = some (f, bytes) ∧ decode f bytes = .ok (i, rest) :=
  ⟨at' .write, .br, [2], [], .write, by decide⟩
theorem witness_StepRunsDecodedInstruction_agent : ∃ s : State, ∀ ctx, s.turn ≠ .host ctx :=
  ⟨s0, fun _ h => by cases h⟩
theorem witness_StepRunsDecodedInstruction_context :
    ∃ (s : State) (ctx : Nat), s.turn = .host ctx ∧ s.hostCode ctx ≠ none :=
  ⟨{ s0 with programs := [(1, 2)], turns := [.host 1] }, 1, by decide⟩
theorem witness_StepRunsDecodedInstruction_entry :
    ∃ (s : State) (ctx : Nat) (op : HcCode) (before after : List (Nat × HcCode)), s.turn = .host ctx ∧
      ¬(s.busy = true ∧ s.server = ctx) ∧ ctx ∉ s.held ∧ s.programs = before ++ (ctx, op) :: after ∧
      ∀ e ∈ before, e.1 ≠ ctx :=
  ⟨{ at' .check with server := 2, programs := [(2, 0), (1, 3), (2, 1), (1, 2)], turns := [.host 1] }, 1, 3, [(2, 0)],
    [(2, 1), (1, 2)], by decide⟩
theorem witness_StepRunsDecodedInstruction_held :
    ∃ (s : State) (ctx : Nat), s.turn = .host ctx ∧ ¬(s.busy = true ∧ s.server = ctx) ∧ ctx ∈ s.held :=
  ⟨{ at' .check with server := 2, held := [1], programs := [(1, 3)], turns := [.host 1] }, 1, by decide⟩
theorem witness_StepRunsDecodedInstruction_waiting :
    ∃ (s : State) (ctx : Nat), s.turn = .host ctx ∧ s.busy = true ∧ s.server = ctx :=
  ⟨{ at' .check with server := 2, programs := [(2, 0)], turns := [.host 2] }, 2, by decide⟩
theorem witness_StepRunsDecodedInstruction_noEntry :
    ∃ (s : State) (ctx : Nat), s.turn = .host ctx ∧ ctx ∉ s.held ∧ ∀ e ∈ s.programs, e.1 ≠ ctx :=
  ⟨{ s0 with programs := [(2, 0)], turns := [.host 1] }, 1, by decide⟩
/-- R165: a context's commands come once each, in its own order, whatever the others have. -/
theorem test_ownOrder :
    nextWith (step { s0 with programs := [(2, 0), (1, 1), (1, 2)], turns := [.host 1] })
      (fun t => decide (t.answers = [(1, .done)]) && decide (t.programs = [(2, 0), (1, 2)])) = true := by decide
theorem witness_FetchPresentsCommandOrRequest_held :
    ∃ (s : State) (ctx : Nat), ¬(s.busy = true ∧ s.server = ctx) ∧ ctx ∈ s.held ∧ s.turn = .host ctx :=
  ⟨{ at' .check with server := 2, held := [1], programs := [(1, 3)], turns := [.host 1] }, 1, by decide⟩
theorem witness_FetchPresentsCommandOrRequest_entry :
    ∃ (s : State) (ctx : Nat) (op : HcCode) (before after : List (Nat × HcCode)), ¬(s.busy = true ∧ s.server = ctx) ∧
      ctx ∉ s.held ∧ s.programs = before ++ (ctx, op) :: after ∧ (∀ e ∈ before, e.1 ≠ ctx) ∧ s.turn = .host ctx :=
  ⟨{ s0 with programs := [(2, 0), (1, 3), (1, 2)], turns := [.host 1] }, 1, 3, [(2, 0)], [(1, 2)], by decide⟩
theorem witness_FetchPresentsCommandOrRequest_noEntry :
    ∃ (s : State) (ctx : Nat), ctx ∉ s.held ∧ (∀ e ∈ s.programs, e.1 ≠ ctx) ∧ s.turn = .host ctx :=
  ⟨{ s0 with programs := [(2, 0)], turns := [.host 1] }, 1, by decide⟩
theorem witness_FetchPresentsCommandOrRequest :
    ∃ (s : State) (ctx : Nat) (op : HcCode), s.turn = .host ctx ∧ s.hostCode ctx = some op :=
  ⟨{ at' .check with server := 2, programs := [(2, 0), (1, 3)], turns := [.host 1] }, 1, 3, by decide⟩
theorem witness_FetchPresentsCommandOrRequest_waiting :
    ∃ (s : State) (ctx : Nat), s.busy = true ∧ s.server = ctx ∧ s.turn = .host ctx :=
  ⟨{ at' .check with server := 2, programs := [(2, 0)], turns := [.host 2] }, 2, by decide⟩
theorem witness_FetchPresentsCommandOrRequest_seq : ∃ s : State, s.turn = .seq ∧ s.st = .exit := ⟨at' .exit, by decide⟩
theorem witness_OneRequestPerStep : ∃ s t : State, step s = .next t ∧ t.busTrace ≠ s.busTrace :=
  ⟨at' .write, _, rfl, by decide⟩
theorem witness_ConfigurationNeverWritten : ∃ s t : State, step s = .next t ∧ t.st ≠ s.st := ⟨at' .write, _, rfl, by decide⟩
theorem parsing_inv : parsing.Inv := by
  rw [State.inv_iff]
  refine ⟨by decide, by decide, by decide, by decide, by decide, Memory.ofBlock_wf recA, fun _ => ?_, by decide, by decide,
    by decide, by decide⟩
  exact test_crc_recA.symm.trans (congrArg crc8 (Memory.bytes_ofBlock recA).symm)
theorem parsing_step : step parsing = .next { parsing with st := .store } := by
  rw [step_seq (by decide), show parsing.st = .parse from rfl]
  simp only [seqParse_eq]
  rw [if_pos (by decide +kernel)]
  rfl
theorem witness_StepKeepsInvariant : ∃ s t : State, s.Inv ∧ step s = .next t := ⟨_, _, parsing_inv, parsing_step⟩
theorem witness_TransitionTableComplete : ∃ s t : State, s.Inv ∧ step s = .next t ∧ t.st ≠ s.st :=
  ⟨_, _, parsing_inv, parsing_step, by decide⟩
theorem witness_BusTraceFollowsGrammar : ∃ s t : State, s.Inv ∧ s.traceInPhase ∧ step s = .next t :=
  ⟨_, _, parsing_inv, by decide, parsing_step⟩
theorem witness_AttemptsStayPaid : ∃ s t : State, s.Inv ∧ s.attemptsPaid ∧ step s = .next t :=
  ⟨_, _, parsing_inv, rfl, parsing_step⟩
theorem witness_PortsStayLegal : ∃ s t : State, s.Inv ∧ s.portsLegal ∧ step s = .next t :=
  ⟨_, _, parsing_inv, by decide, parsing_step⟩
theorem witness_IdentityWriters : ∃ s t : State, s.Inv ∧ step s = .next t ∧ t.identity ≠ s.identity :=
  ⟨{ s0 with identity := some 1, programs := [(1, 1)], turns := [.host 1] }, _, by decide, rfl, by decide⟩
theorem witness_FaultsAreTheFive_raised : ∃ s t : State, s.Inv ∧ step s = .next t ∧ t.diagTrace ≠ s.diagTrace :=
  ⟨{ at' .check with retry := 0 }, _, by decide +kernel, rfl, by decide⟩
theorem witness_FaultsAreTheFive_cause :
    ∃ (s : State) (e : Err), s.turn = .seq ∧ s.stalled = false ∧ s.causes e :=
  ⟨{ at' .reset with presences := [.absent] }, .busResetFailure, by decide⟩
theorem witness_BudgetOnlyLoadedOrDecremented :
    ∃ s t : State, s.Inv ∧ step s = .next t ∧ s.turn ≠ .reset ∧ t.retry ≠ s.retry :=
  ⟨{ at' .reset with retry := 1, presences := [.absent] }, _, by decide +kernel, rfl, by decide, by decide⟩
/-- Quiescent although turns are still scheduled: R225 does not ask for an empty schedule. -/
theorem witness_QuiescentStateStays : ∃ s : State, s.Quiescent ∧ s.turn ≠ .reset ∧ s.turns ≠ [] :=
  ⟨{ s0 with turns := [.busStalls, .reset] }, by decide⟩
theorem witness_QuiescentStateStays_reset :
    ∃ (s t : State) (n : Nat), s.Quiescent ∧ s.turn = .reset ∧ 1 ≤ n ∧ Host.Core.run Sys2Proof.core n s = .next t :=
  ⟨{ s0 with turns := [.reset] }, _, 1, by decide, by decide, by decide, rfl⟩
theorem witness_QuiescentStateStays_over : ∃ s : State, s.Quiescent ∧ s.turns = [] := ⟨s0, by decide⟩
/-- Idle, but not over: a command is left, or an ATTACH is held. -/
theorem test_notQuiescent :
    ¬State.Quiescent { s0 with programs := [(1, 2)] } ∧ ¬State.Quiescent { s0 with held := [2] } ∧
      ¬State.Quiescent (at' .cmdCrc) := by decide
/-- V20 is over after the sequencer's last step (R225). -/
theorem test_runOver : State.RunOver { at' .exit with server := 1 } 1 := ⟨1, by decide, _, rfl, by decide⟩
/-- R226: a DETACH does not end the wait. -/
theorem witness_StuckStateStays_turn :
    ∃ s t : State, s.busy = true ∧ s.Waiting ∧ step s = .next t ∧ s.turn ≠ .reset ∧ s.turn ≠ .busResumes ∧
      s.turn ≠ .otherReleases ∧ t.answers ≠ s.answers :=
  ⟨{ at' .cmdCrc with programs := [(1, 1)], turns := [.host 1] }, _, by decide, by decide, rfl, by decide, by decide,
    by decide, by decide⟩
theorem witness_StuckStateStays_schedule :
    ∃ s : State, s.busy = true ∧ s.Waiting ∧ s.turns ≠ [] ∧
      ∀ u ∈ s.turns, u ≠ .reset ∧ u ≠ .busResumes ∧ u ≠ .otherReleases :=
  ⟨{ at' .lock with otherOwns := true, turns := [.seq, .busStalls] }, by decide⟩
theorem witness_StuckStateStays_over : ∃ s : State, s.Waiting ∧ s.turns = [] := ⟨at' .block, by decide⟩
theorem witness_StuckStateStays_stuck :
    ∃ (s t : State) (n : Nat), s.Stuck ∧ Host.Core.run Sys2Proof.core n s = .next t := by
  refine ⟨at' .cmdCrc, at' .cmdCrc, 3, fun n t h => ?_, rfl⟩
  rw [core_run_fixed rfl] at h
  cases h
  decide
theorem witness_AttachTerminates :
    ∃ s : State, s.st = .lock ∧ s.retry = 5#3 ∧ s.turns = [] ∧ s.stalled = false ∧ s.otherOwns = false ∧
      5 ≤ s.presences.length ∧ 10 ≤ s.bytesIn.length ∧ 5 ≤ s.blocksIn.length :=
  ⟨{ at' .lock with
      presences := List.replicate 5 .present, bytesIn := List.replicate 10 0x8D, blocksIn := List.replicate 5 recA },
    by decide⟩
/-- Four attempts that fault, each in its own way, and a clean one. -/
def fiveAttempts : List Attempt :=
  [⟨.absent, 0, recA, 0⟩, ⟨.present, 0xFF, recA, 0⟩, ⟨.present, 0x8D, recA, 0x00⟩, ⟨.absent, 0x8D, recA, 0xAE⟩,
    ⟨.present, 0x8D, recA, 0xAE⟩]
theorem witness_AttachFunctionalSummary :
    ∃ (s : State) (as : List Attempt) (ps : List Presence) (bs : List Byte) (rs : List Block),
      s.busy = false ∧ s.turns = [] ∧ s.stalled = false ∧ s.otherOwns = false ∧ as.length = 5 ∧
        s.presences = as.map (·.p) ++ ps ∧ s.bytesIn = as.flatMap Attempt.bytesAsked ++ bs ∧
        s.blocksIn = as.flatMap Attempt.blocksAsked ++ rs :=
  ⟨{ s0 with
      presences := fiveAttempts.map (·.p), bytesIn := fiveAttempts.flatMap Attempt.bytesAsked,
      blocksIn := fiveAttempts.flatMap Attempt.blocksAsked },
    fiveAttempts, [], [], [], rfl, rfl, rfl, rfl, rfl, by simp, by simp, by simp⟩
theorem witness_HiddenRegistersNotObservable :
    ∃ (s : State) (retry res : Code3) (record : Memory) (crcb : Byte) (n : Nat) (t t' : State),
      s.st = .idle ∧ s.busy = false ∧ Host.Core.run Sys2Proof.core n s = .next t ∧
        Host.Core.run Sys2Proof.core n { s with retry := retry, res := res, record := record, crcb := crcb } = .next t' :=
  ⟨{ s0 with programs := [(1, 0)], turns := [.host 1] }, 3, 5, [(0, 1)], 7, 2, _, _, rfl, rfl, rfl, rfl⟩
theorem witness_RegisterWriters_record :
    ∃ s t : State, step s = .next t ∧ s.turn ≠ .reset ∧ t.record.read 0 ≠ s.record.read 0 :=
  ⟨{ at' .block with blocksIn := [recA] }, _, rfl, by decide, by decide +kernel⟩
theorem witness_RegisterWriters_crcb : ∃ s t : State, step s = .next t ∧ s.turn ≠ .reset ∧ t.crcb ≠ s.crcb :=
  ⟨{ at' .cmdCrc with bytesIn := [0x8C] }, _, rfl, by decide, by decide +kernel⟩
theorem witness_RegisterWriters_res : ∃ s t : State, step s = .next t ∧ s.turn ≠ .reset ∧ t.res ≠ s.res :=
  ⟨{ at' .check with retry := 0 }, _, rfl, by decide, by decide⟩
theorem witness_RegisterWriters_busy : ∃ s t : State, step s = .next t ∧ s.turn ≠ .reset ∧ t.busy ≠ s.busy :=
  ⟨at' .exit, _, rfl, by decide, by decide⟩
theorem witness_EnvironmentTurnsFrame_takes : ∃ s : State, s.turn = .otherTakes ∧ (s.st = .idle ∨ s.st = .lock) :=
  ⟨{ at' .lock with turns := [.otherTakes] }, by decide⟩
theorem witness_EnvironmentTurnsFrame_takesNot :
    ∃ s : State, s.turn = .otherTakes ∧ s.st ≠ .idle ∧ s.st ≠ .lock :=
  ⟨{ at' .check with turns := [.otherTakes] }, by decide⟩
theorem witness_EnvironmentTurnsFrame_releases : ∃ s : State, s.turn = .otherReleases :=
  ⟨{ at' .lock with otherOwns := true, turns := [.otherReleases] }, by decide⟩
theorem witness_EnvironmentTurnsFrame_stalls : ∃ s : State, s.turn = .busStalls :=
  ⟨{ at' .reset with turns := [.busStalls] }, by decide⟩
theorem witness_EnvironmentTurnsFrame_resumes : ∃ s : State, s.turn = .busResumes :=
  ⟨{ at' .reset with stalled := true, turns := [.busResumes] }, by decide⟩
theorem witness_EnvironmentTurnsFrame_frame : ∃ s : State, s.turn = .frame ∧ s.st ≠ .write :=
  ⟨{ at' .block with turns := [.frame] }, by decide⟩
theorem witness_EnvironmentTurnsFrame_host : ∃ (s : State) (ctx : Nat), s.turn = .host ctx ∧ s.hostCode ctx = none :=
  ⟨{ s0 with programs := [(2, 0)], turns := [.host 1] }, 1, by decide⟩

end Sys2Proof.Tests
end

section
/-! PROOFS. What stands on the ports in a step, and what the turn uses up (spec/00_scope.md R10, spec/30_encoding.md R81):
the family of spec/00_scope.md. -/

namespace Sys2Proof.Machine

variable {s : State} {ctx : Nat}

/-! ### The command port: which code a context presents -/

/-- A context that waits for its answer, or has neither a held ATTACH nor a command left, presents nothing. -/
theorem State.hostCode_eq_none
    (h : (s.busy = true ∧ s.server = ctx) ∨ (ctx ∉ s.held ∧ ∀ e ∈ s.programs, e.1 ≠ ctx)) : s.hostCode ctx = none := by
  by_cases hw : s.busy = true ∧ s.server = ctx
  · exact State.hostCode_waiting hw
  · obtain ⟨hheld, hnone⟩ := h.resolve_left hw
    rw [State.hostCode_program hw hheld, nextCode_eq_none hnone]

theorem State.hostCode_of_first {op : HcCode} {before after : List (Nat × HcCode)}
    (hw : ¬(s.busy = true ∧ s.server = ctx)) (hheld : ctx ∉ s.held) (hp : s.programs = before ++ (ctx, op) :: after)
    (hb : ∀ e ∈ before, e.1 ≠ ctx) : s.hostCode ctx = some op := by
  rw [State.hostCode_program hw hheld, hp, nextCode_of_first op after hb]

/-! ### What a context's turn uses up -/

theorem State.present_of_none (h : s.hostCode ctx = none) : s.present ctx = s := by
  simp [State.present, h]

theorem State.present_of_some {op : HcCode} (h : s.hostCode ctx = some op) :
    s.present ctx =
      { s with issuer := ctx, programs := if ctx ∈ s.held then s.programs else dropCode s.programs ctx } := by
  simp [State.present, h]

theorem advance_host (h : s.turn = .host ctx) : advance s = s.endTurn.present ctx := by
  simp [advance, h]

theorem advance_host_none (h : s.turn = .host ctx) (hc : s.hostCode ctx = none) : advance s = s.endTurn := by
  rw [advance_host h, State.present_of_none (by simpa using hc)]

theorem advance_host_some {op : HcCode} (h : s.turn = .host ctx) (hc : s.hostCode ctx = some op) :
    advance s =
      { s with turns := s.turns.tail, issuer := ctx,
               programs := if ctx ∈ s.held then s.programs else dropCode s.programs ctx } := by
  rw [advance_host h, State.present_of_some (s := s.endTurn) hc]
  rfl

/-- A held ATTACH is presented again without taking a command. -/
theorem advance_host_held (h : s.turn = .host ctx) (hw : ¬(s.busy = true ∧ s.server = ctx)) (hheld : ctx ∈ s.held) :
    advance s = { s with turns := s.turns.tail, issuer := ctx } := by
  rw [advance_host_some h (State.hostCode_held hw hheld), if_pos hheld]

/-- The next command of a context is the one entry its turn removes. -/
theorem advance_host_of_first {op : HcCode} {before after : List (Nat × HcCode)} (h : s.turn = .host ctx)
    (hw : ¬(s.busy = true ∧ s.server = ctx)) (hheld : ctx ∉ s.held) (hp : s.programs = before ++ (ctx, op) :: after)
    (hb : ∀ e ∈ before, e.1 ≠ ctx) :
    advance s = { s with turns := s.turns.tail, issuer := ctx, programs := before ++ after } := by
  rw [advance_host_some h (State.hostCode_of_first hw hheld hp hb), if_neg hheld, hp, dropCode_of_first op after hb]

/-! ### The ports -/

theorem fetch_host (h : s.turn = .host ctx) : fetch s = (s.hostCode ctx).map fun op => (.hc, [op.setWidth 8]) := by
  simp [fetch, h]

theorem fetch_host_none (h : s.turn = .host ctx) (hc : s.hostCode ctx = none) : fetch s = none := by
  rw [fetch_host h, hc, Option.map_none]

theorem fetch_host_some {op : HcCode} (h : s.turn = .host ctx) (hc : s.hostCode ctx = some op) :
    fetch s = some (.hc, [op.setWidth 8]) := by
  rw [fetch_host h, hc, Option.map_some]

theorem fetch_seq (h : s.turn = .seq) : fetch s = (requestCode s.st).map fun c => (.br, [c.setWidth 8]) := by
  simp [fetch, h]

end Sys2Proof.Machine

open Sys2Proof.Machine

/-- Settles O40: the turn's use by what the context presents, through `State.hostCode`. -/
theorem stepRunsDecodedInstruction : Obligations.StepRunsDecodedInstruction := by
  refine ⟨fun _ _ _ _ _ hf hd => step_of_fetch hf hd, fun _ h => advance_eq h,
    fun _ _ _ _ _ h hw hheld hp hb => advance_host_of_first h hw hheld hp hb,
    fun _ _ h hw hheld => advance_host_held h hw hheld,
    fun _ _ h hn => advance_host_none h (State.hostCode_eq_none hn), fun s ctx h hc => ?_⟩
  obtain ⟨_, hop⟩ := Option.ne_none_iff_exists'.1 hc
  exact advance_host_some h hop

/-- Settles O41: a context's port shows `State.hostCode`, the bus port the request of the sequencer's state. -/
theorem fetchPresentsCommandOrRequest : Obligations.FetchPresentsCommandOrRequest := by
  refine ⟨fun _ _ h => fetch_host h, fun s ctx hw hheld => ?held, fun s ctx op before after hw hheld hp hb => ?entry,
    fun s ctx hn => ?nothing, fun s h => ?sequencer⟩
  case held =>
    have hc := State.hostCode_held hw hheld
    exact ⟨hc, fun h => fetch_host_some h hc⟩
  case entry =>
    have hc := State.hostCode_of_first hw hheld hp hb
    exact ⟨hc, fun h => fetch_host_some h hc⟩
  case nothing =>
    have hc := State.hostCode_eq_none hn
    exact ⟨hc, fun h => ⟨fetch_host_none h hc, step_host_none h hc⟩⟩
  case sequencer =>
    have hf := fetch_seq h
    cases hst : s.st <;> rw [hst] at hf <;> exact hf
end

section
/-! PROOFS. What every step keeps, and the moves of the sequencer (spec/10_state.md R26, R27, R37): one lemma per clause of
the invariant, each a case analysis over `StepCase`. Each names the cases that make its clause true or end its premise; in
every other case the clause is that of the state before, or speaks of a state of the sequencer that the step does not
enter. -/

namespace Sys2Proof.Machine

variable {s t : State}

/-! ### The invariant, clause by clause (R37, R34, R64, R121, R144) -/

/-- BUSY is set with the move out of S_IDLE and cleared with the move into it (R28). -/
theorem StepCase.keeps_busyIffNotIdle (h : StepCase s t) (hs : s.busyIffNotIdle) : t.busyIffNotIdle := by
  cases h with
  | attachAccepted | exit | resetHolding | resetFree => simp [State.busyIffNotIdle]
  | _ => simp_all [State.busyIffNotIdle]

/-- A transient fault takes one from a budget that is not empty, so it does not wrap (R121). -/
theorem StepCase.keeps_retryInBudget (h : StepCase s t) (hs : s.retryInBudget) (hleft : s.retryLeftInAttempt) :
    t.retryInBudget := by
  cases h with
  | attachAccepted => exact fun _ => Nat.le_refl 5
  | resetAbsent _ _ hst | echoBad _ _ _ hst | payloadBad _ _ _ hst =>
    have hne : s.retry ≠ 0#3 := hleft (by simp [hst, SeqState.inAttempt])
    intro hb
    have hle : s.retry.toNat ≤ 5 := hs hb
    bv_omega
  | exit | resetHolding | resetFree => exact nofun
  | _ => exact hs

theorem StepCase.keeps_retryLeftInAttempt (h : StepCase s t) (hs : s.retryLeftInAttempt) : t.retryLeftInAttempt := by
  cases h with
  | checkGo _ _ hretry => exact fun _ => hretry
  | _ => simp_all [State.retryLeftInAttempt, SeqState.inAttempt]

theorem StepCase.keeps_budgetFullAtLock (h : StepCase s t) (hs : s.budgetFullAtLock) : t.budgetFullAtLock := by
  cases h with
  | attachAccepted => exact fun _ => rfl
  | _ => simp_all [State.budgetFullAtLock]

theorem StepCase.keeps_resultLegal (h : StepCase s t) (hs : s.resultLegal) : t.resultLegal := by
  cases h with
  | checkEmpty | parseBad | store => exact fun _ => rfl
  | _ => simp_all [State.resultLegal]

theorem StepCase.keeps_recordWf (h : StepCase s t) (hs : s.recordWf) : t.recordWf := by
  cases h with
  | block r => exact Memory.ofBlock_wf r
  | resetHolding | resetFree => exact Memory.reset_wf
  | _ => exact hs

theorem State.crcPassed_iff :
    s.crcPassed ↔ (s.st = .parse ∨ s.st = .store → s.crcb = crc8 s.record.bytes) :=
  imp_congr_right fun _ => decide_eq_true_iff

theorem State.magicPassed_iff : s.magicPassed ↔ (s.st = .store → magic s.record = 0xE54C21ED#32) :=
  imp_congr_right fun _ => decide_eq_true_iff

/-- S_PARSE is entered from S_DATACRC on a matching CRC, and S_STORE from S_PARSE (R144). -/
theorem StepCase.keeps_crcPassed (h : StepCase s t) (hs : s.crcPassed) : t.crcPassed := by
  rw [State.crcPassed_iff] at hs ⊢
  cases h with
  | payloadOk _ _ _ _ _ _ heq => exact fun _ => heq
  | parseOk _ hst => exact fun _ => hs (.inl hst)
  | _ => intro hst; simp_all

/-- S_STORE is entered from S_PARSE on a matching magic (R118). -/
theorem StepCase.keeps_magicPassed (h : StepCase s t) (hs : s.magicPassed) : t.magicPassed := by
  rw [State.magicPassed_iff] at hs ⊢
  cases h with
  | parseOk _ _ hmagic => exact fun _ => hmagic
  | _ => simp_all

theorem StepCase.keeps_busExclusive (h : StepCase s t) (hs : s.busExclusive) : t.busExclusive := by
  cases h with
  | lockGranted _ _ _ hfree => exact fun _ => hfree
  | otherTakes _ hfree => exact fun hheld => absurd (hfree.symm.trans hheld) (by decide)
  | _ => simp_all [State.busExclusive, State.holdsLock_iff]

theorem StepCase.keeps_commandsSingle (h : StepCase s t) (hs : s.commandsSingle) : t.commandsSingle := by
  obtain ⟨hnodup, hserver⟩ := hs
  cases h with
  | attachHeld ctx _ _ hcode hbusy =>
    have hne := State.server_ne_of_hostCode hcode hbusy
    by_cases hmem : ctx ∈ s.held
    · simpa [State.commandsSingle, hmem] using ⟨hnodup, hserver⟩
    · have hnotin : s.server ∉ s.held ++ [ctx] := by simp [hserver hbusy, hne]
      have hsingle : (s.held ++ [ctx]).Nodup := by simpa using hnodup.concat hmem
      simp [State.commandsSingle, hmem, hsingle, hnotin]
  | attachAccepted ctx => exact ⟨hnodup.erase ctx, fun _ => hnodup.not_mem_erase⟩
  | exit | resetHolding | resetFree => exact ⟨hnodup, nofun⟩
  | _ => exact ⟨hnodup, hserver⟩

/-! ### Every attempt is paid for (R27, R122) -/

/-- A sequencer in an attempt is busy and has one to five retries left (R27, R121). -/
theorem State.Inv.retry_bounds (hs : s.Inv) (hst : s.st.inAttempt = true) : 1 ≤ s.retry.toNat ∧ s.retry.toNat ≤ 5 := by
  obtain ⟨hbusy, hbudget, hleft, -⟩ := hs
  have hne : s.retry ≠ 0#3 := hleft hst
  have hb : s.busy = true := by
    cases hb : s.busy
    · rw [hbusy.1 hb] at hst; cases hst
    · rfl
  exact ⟨by bv_omega, hbudget hb⟩

theorem toNat_retry_sub_one {r : Code3} (h : 1 ≤ r.toNat) : (r - 1#3).toNat = r.toNat - 1 := by bv_omega

/-- A RESET request costs one retry: at once if it fails, later if its attempt does (R121, R122). -/
theorem StepCase.keeps_attemptsPaid (h : StepCase s t) (hinv : s.Inv) (hs : s.attemptsPaid) : t.attemptsPaid := by
  have hbounds := hinv.retry_bounds
  cases h with
  | lockGranted _ hst =>
    obtain ⟨-, -, -, hfullAtLock, -⟩ := hinv
    have hfull : s.retry = 5#3 := hfullAtLock hst
    simp [State.attemptsPaid, resetsInBracket_append, hfull]
  | resetAbsent _ _ hst | echoBad _ _ _ hst | payloadBad _ _ _ hst =>
    obtain ⟨hpos, hle⟩ := hbounds (by simp [hst, SeqState.inAttempt])
    simp only [State.attemptsPaid, hst] at hs
    simp only [State.attemptsPaid, resetsInBracket_append, toNat_retry_sub_one hpos, reduceCtorEq, if_true, if_false]
    omega
  | checkEmpty _ hst hretry =>
    have hfive : resetsInBracket s.busTrace = 5 := by simpa [State.attemptsPaid, hst, hretry] using hs
    simp [State.attemptsPaid, hfive]
  | parseBad _ hst | store _ hst =>
    obtain ⟨hpos, hle⟩ := hbounds (by simp [hst, SeqState.inAttempt])
    simp only [State.attemptsPaid, hst] at hs ⊢
    omega
  | attachAccepted | exit | resetHolding | resetFree => trivial
  | checkGo _ hst | parseOk _ hst => simpa only [State.attemptsPaid, hst] using hs
  | resetPresent _ _ hst | write _ hst | echoOk _ _ hst | block _ _ _ hst | payloadOk _ _ _ hst =>
    simp only [State.attemptsPaid, hst] at hs
    simp only [State.attemptsPaid, resetsInBracket_append, reduceCtorEq, if_true, if_false]
    omega
  | _ => exact hs

end Sys2Proof.Machine

open Sys2Proof.Machine

/-- Settles O46, clause by clause; only the budget's bound needs a second clause, that an attempt has a retry left. -/
theorem stepKeepsInvariant : Obligations.StepKeepsInvariant := by
  intro s t ⟨hbusy, hbudget, hleft, hfull, hres, hrecord, hcrc, hmagic, hbus, hcommands⟩ h
  have hcase := step_cases h
  exact ⟨hcase.keeps_busyIffNotIdle hbusy, hcase.keeps_retryInBudget hbudget hleft, hcase.keeps_retryLeftInAttempt hleft,
    hcase.keeps_budgetFullAtLock hfull, hcase.keeps_resultLegal hres, hcase.keeps_recordWf hrecord,
    hcase.keeps_crcPassed hcrc, hcase.keeps_magicPassed hmagic, hcase.keeps_busExclusive hbus,
    hcase.keeps_commandsSingle hcommands⟩

/-- Settles O47: each move of `StepCase` is a row of the table. -/
theorem transitionTableComplete : Obligations.TransitionTableComplete := by
  intro s t hinv h
  cases step_cases h with
  | resetHolding hturn | resetFree hturn => exact .inr (.inr ⟨hturn, rfl⟩)
  | attachAccepted ctx _ hturn hcode hbusy =>
    have hidle : s.st = .idle := hinv.1.1 hbusy
    exact .inr (.inl (by simp [State.mayGo, hidle, hbusy, hturn, hcode]))
  | lockGranted | checkEmpty | checkGo | resetPresent | resetAbsent | write | echoOk | echoBad | block | payloadOk
  | payloadBad | parseOk | parseBad | store | exit =>
    exact .inr (.inl (by simp [State.mayGo, *]))
  | _ => exact .inl rfl

/-- Settles O49: the count of RESET requests and RETRY move together. -/
theorem attemptsStayPaid : Obligations.AttemptsStayPaid :=
  fun _ _ hinv hpaid h => (step_cases h).keeps_attemptsPaid hinv hpaid

/-- Settles O53: only an accepted ATTACH and a transient fault write RETRY, and a fault comes in an attempt. -/
theorem budgetOnlyLoadedOrDecremented : Obligations.BudgetOnlyLoadedOrDecremented := by
  intro s t hinv h hturn
  have hbounds := hinv.retry_bounds
  cases step_cases h with
  | attachAccepted _ _ _ _ hbusy => exact .inr (.inl ⟨hbusy, rfl, rfl⟩)
  | resetAbsent _ _ hst | echoBad _ _ _ hst | payloadBad _ _ _ hst =>
    obtain ⟨hpos, -⟩ := hbounds (by simp [hst, SeqState.inAttempt])
    refine .inr (.inr ⟨?_, rfl, _, rfl, by decide, by decide⟩)
    rw [toNat_retry_sub_one hpos, Nat.sub_add_cancel hpos]
  | resetHolding hreset | resetFree hreset => exact absurd hreset hturn
  | _ => exact .inl rfl

/-- Settles O6, by evaluation; an idle sequencer's own step changes nothing. -/
theorem resetLeavesNoIdentity : Obligations.ResetLeavesNoIdentity := by
  refine ⟨rfl, rfl, rfl, rfl, rfl, execHasIdentity_next.2 rfl, execClassification_next.2 rfl, ?_⟩
  rw [step_of_nil rfl]
  rfl

/-- Settles O45, by evaluation at the reset state. -/
theorem invariantAtReset : Obligations.InvariantAtReset := by
  refine ⟨State.inv_iff.2 ?_, ⟨.outside, by decide⟩, trivial, by decide⟩
  decide
end

section
/-! PROOFS. Who writes what, and what stands on the ports afterwards (spec/10_state.md R20, R21, R33). -/

namespace Sys2Proof.Machine

variable {s t : State}

/-! ### What a step puts on the ports (R33, R199) -/

theorem StepCase.keeps_answersLegal (h : StepCase s t) (hres : s.resultLegal) (hs : ∀ a ∈ s.answers, a.2.legal = true) :
    ∀ a ∈ t.answers, a.2.legal = true := by
  cases h with
  | detach | hasIdentity | classification => exact List.forall_mem_append.2 ⟨hs, List.forall_mem_singleton.2 rfl⟩
  | exit _ hst => exact List.forall_mem_append.2 ⟨hs, List.forall_mem_singleton.2 (hres hst)⟩
  | _ => exact hs

theorem StepCase.keeps_diagLegal (h : StepCase s t) (hs : ∀ c ∈ s.diagTrace, diagCodeWf c = true) :
    ∀ c ∈ t.diagTrace, diagCodeWf c = true := by
  cases h with
  | checkEmpty | resetAbsent | echoBad | payloadBad | parseBad =>
    exact List.forall_mem_append.2 ⟨hs, List.forall_mem_singleton.2 rfl⟩
  | _ => exact hs

theorem StepCase.keeps_requestsLegal (h : StepCase s t) (hs : ∀ r ∈ s.busTrace, r.wf = true) :
    ∀ r ∈ t.busTrace, r.wf = true := by
  cases h with
  | lockGranted | resetPresent | resetAbsent | write | echoOk | echoBad | block | payloadOk | payloadBad | exit
  | resetHolding => exact List.forall_mem_append.2 ⟨hs, List.forall_mem_singleton.2 rfl⟩
  | _ => exact hs

/-! ### The writers of the registers (R20, R21, R28 to R31) -/

theorem StepCase.identity_writers (h : StepCase s t) :
    t.identity = s.identity ∨ (t.identity = none ∧ s.turn = .reset) ∨
      (t.identity = none ∧ ∃ ctx, s.turn = .host ctx ∧ s.hostCode ctx = some 1#2) ∨
      (s.turn = .seq ∧ s.st = .store ∧ t.identity = some (identifier s.cfg s.record)) := by
  cases h with
  | detach ctx _ hturn hcode => exact .inr (.inr (.inl ⟨rfl, ctx, hturn, hcode⟩))
  | store hturn hst => exact .inr (.inr (.inr ⟨hturn, hst, rfl⟩))
  | resetHolding hturn | resetFree hturn => exact .inr (.inl ⟨rfl, hturn⟩)
  | _ => exact .inl rfl

theorem StepCase.record_writers (h : StepCase s t) (hturn : s.turn ≠ .reset) :
    t.record = s.record ∨ (s.turn = .seq ∧ s.st = .block) := by
  cases h with
  | block _ _ hseq hst => exact .inr ⟨hseq, hst⟩
  | resetHolding hreset | resetFree hreset => exact absurd hreset hturn
  | _ => exact .inl rfl

theorem StepCase.crcb_writers (h : StepCase s t) (hturn : s.turn ≠ .reset) :
    t.crcb = s.crcb ∨ (s.turn = .seq ∧ (s.st = .cmdCrc ∨ s.st = .dataCrc)) := by
  cases h with
  | echoOk _ hseq hst | echoBad _ _ hseq hst => exact .inr ⟨hseq, .inl hst⟩
  | payloadOk _ _ hseq hst | payloadBad _ _ hseq hst => exact .inr ⟨hseq, .inr hst⟩
  | resetHolding hreset | resetFree hreset => exact absurd hreset hturn
  | _ => exact .inl rfl

theorem StepCase.res_writers (h : StepCase s t) (hturn : s.turn ≠ .reset) :
    t.res = s.res ∨ (s.turn = .seq ∧ (s.st = .check ∨ s.st = .parse ∨ s.st = .store)) := by
  cases h with
  | checkEmpty hseq hst => exact .inr ⟨hseq, .inl hst⟩
  | parseBad hseq hst => exact .inr ⟨hseq, .inr (.inl hst)⟩
  | store hseq hst => exact .inr ⟨hseq, .inr (.inr hst)⟩
  | resetHolding hreset | resetFree hreset => exact absurd hreset hturn
  | _ => exact .inl rfl

theorem StepCase.busy_writers (h : StepCase s t) (hturn : s.turn ≠ .reset) :
    t.busy = s.busy ∨ (t.busy = true ∧ t.st = .lock ∧ ∃ ctx, s.turn = .host ctx ∧ s.hostCode ctx = some 0#2) ∨
      (t.busy = false ∧ s.turn = .seq ∧ s.st = .exit) := by
  cases h with
  | attachAccepted ctx _ hhost hcode => exact .inr (.inl ⟨rfl, rfl, ctx, hhost, hcode⟩)
  | exit hseq hst => exact .inr (.inr ⟨rfl, hseq, hst⟩)
  | resetHolding hreset | resetFree hreset => exact absurd hreset hturn
  | _ => exact .inl rfl

end Sys2Proof.Machine

open Sys2Proof.Machine

/-- Settles O50, port by port; the answer of S_EXIT is legal because RES is. -/
theorem portsStayLegal : Obligations.PortsStayLegal := by
  intro s t hinv ⟨hanswers, hdiag, hbus⟩ h
  have hcase := step_cases h
  obtain ⟨-, -, -, -, hres, -⟩ := hinv
  exact ⟨hcase.keeps_answersLegal hres hanswers, hcase.keeps_diagLegal hdiag, hcase.keeps_requestsLegal hbus⟩

/-- Settles O51: S_STORE is the one writer of an identifier, and it stands behind both checks. -/
theorem identityWriters : Obligations.IdentityWriters := by
  intro s t hinv h
  obtain ⟨-, -, -, -, -, -, hcrc, hmagic, -⟩ := State.inv_iff.1 hinv
  refine (step_cases h).identity_writers.imp_right (Or.imp_right (Or.imp_right ?_))
  rintro ⟨hturn, hst, hid⟩
  exact ⟨hturn, hst, hcrc (.inr hst), hmagic hst, hid⟩

/-- Settles O59, register by register. -/
theorem registerWriters : Obligations.RegisterWriters := by
  intro s t h hturn
  have hcase := step_cases h
  have hrecord := hcase.record_writers hturn
  exact ⟨hrecord.imp_left fun he _ => by rw [he], hrecord, hcase.crcb_writers hturn, hcase.res_writers hturn,
    hcase.busy_writers hturn⟩
end

section
/-! PROOFS. The registers that reset leaves unspecified are not observable (spec/10_state.md R24, R36): a relation between
states that look the same, kept by every step. -/

namespace Sys2Proof.Machine

variable {s s' t : State}

/-! ### The hidden registers -/

/-- Values for the registers that R36 leaves unspecified after reset. -/
structure Hidden where
  retry : Code3
  res : Code3
  record : Memory
  crcb : Byte

/-- The state with other values in the hidden registers. -/
def State.withHidden (s : State) (h : Hidden) : State :=
  { s with retry := h.retry, res := h.res, record := h.record, crcb := h.crcb }

/-- What a hidden register may still be read for is the same in both, by where the sequencer stands: RETRY outside S_IDLE,
the record from S_DATACRC to S_STORE, RES in S_EXIT. CRCB is read only in the step that latches it. -/
structure Hidden.Agrees (h : Hidden) (s : State) : Prop where
  retry : s.st ≠ .idle → h.retry = s.retry
  record : s.st = .dataCrc ∨ s.st = .parse ∨ s.st = .store → h.record = s.record
  res : s.st = .exit → h.res = s.res

/-- The two states differ only in hidden registers that are written before they are read. -/
def SameVisible (s s' : State) : Prop := ∃ h : Hidden, h.Agrees s ∧ s' = s.withHidden h

/-- While the sequencer is idle the hidden registers may hold anything (R24). -/
theorem SameVisible.of_idle (hst : s.st = .idle) (h : Hidden) : SameVisible s (s.withHidden h) :=
  ⟨h, ⟨fun hne => absurd hst hne, by simp [hst], by simp [hst]⟩, rfl⟩

theorem SameVisible.refl (s : State) : SameVisible s s :=
  ⟨⟨s.retry, s.res, s.record, s.crcb⟩, ⟨fun _ => rfl, fun _ => rfl, fun _ => rfl⟩, rfl⟩

/-! ### What a turn uses up -/

theorem SameVisible.endTurn (hv : SameVisible s s') : SameVisible s.endTurn s'.endTurn := by
  obtain ⟨h, ⟨hretry, hrecord, hres⟩, rfl⟩ := hv
  exact ⟨h, ⟨hretry, hrecord, hres⟩, rfl⟩

theorem SameVisible.present (hv : SameVisible s s') (ctx : Nat) : SameVisible (s.present ctx) (s'.present ctx) := by
  obtain ⟨h, ⟨hretry, hrecord, hres⟩, rfl⟩ := hv
  have hcode : (s.withHidden h).hostCode ctx = s.hostCode ctx := rfl
  rcases hc : s.hostCode ctx with _ | op
  · rw [State.present_of_none hc, State.present_of_none (hcode.trans hc)]
    exact ⟨h, ⟨hretry, hrecord, hres⟩, rfl⟩
  · rw [State.present_of_some hc, State.present_of_some (hcode.trans hc)]
    exact ⟨h, ⟨hretry, hrecord, hres⟩, rfl⟩

theorem SameVisible.turn_eq (hv : SameVisible s s') : s'.turn = s.turn := by
  obtain ⟨h, -, rfl⟩ := hv
  rfl

theorem SameVisible.fetch_eq (hv : SameVisible s s') : fetch s' = fetch s := by
  obtain ⟨h, -, rfl⟩ := hv
  rfl

theorem SameVisible.advance (hv : SameVisible s s') : SameVisible (advance s) (advance s') := by
  by_cases hhost : ∃ ctx, s.turn = .host ctx
  · obtain ⟨ctx, hturn⟩ := hhost
    rw [advance_host hturn, advance_host (hv.turn_eq.trans hturn)]
    exact hv.endTurn.present ctx
  · have hnot : ∀ ctx, s.turn ≠ .host ctx := fun ctx hturn => hhost ⟨ctx, hturn⟩
    rw [advance_eq hnot, advance_eq (hv.turn_eq ▸ hnot)]
    exact hv.endTurn

/-! ### The instructions -/

/-- The bus master's answers are no hidden register: whatever is left of them after one is taken. -/
theorem SameVisible.withAnswers (hv : SameVisible s s') (ps : List Presence) (bs : List Byte) (rs : List Block) :
    SameVisible { s with presences := ps, bytesIn := bs, blocksIn := rs }
      { s' with presences := ps, bytesIn := bs, blocksIn := rs } := by
  obtain ⟨h, ⟨hretry, hrecord, hres⟩, rfl⟩ := hv
  exact ⟨h, ⟨hretry, hrecord, hres⟩, rfl⟩

theorem SameVisible.afterReset (hv : SameVisible s s') (hst : s.st = .reset) (p : Presence) :
    SameVisible (s.afterReset p) (s'.afterReset p) := by
  obtain ⟨h, hagree, rfl⟩ := hv
  have hretry := hagree.retry (by simp [hst])
  rw [State.afterReset_eq, State.afterReset_eq]
  cases p
  · exact ⟨h, ⟨fun _ => hretry, nofun, nofun⟩, rfl⟩
  · exact ⟨{ h with retry := h.retry - 1#3 }, ⟨fun _ => congrArg (· - 1#3) hretry, nofun, nofun⟩, rfl⟩

theorem SameVisible.afterEchoByte (hv : SameVisible s s') (hst : s.st = .cmdCrc) (b : Byte) :
    SameVisible (s.afterEchoByte b) (s'.afterEchoByte b) := by
  obtain ⟨h, hagree, rfl⟩ := hv
  have hretry := hagree.retry (by simp [hst])
  rw [State.afterEchoByte_eq, State.afterEchoByte_eq]
  split
  · exact ⟨{ h with crcb := b }, ⟨fun _ => hretry, nofun, nofun⟩, rfl⟩
  · exact ⟨{ h with crcb := b, retry := h.retry - 1#3 }, ⟨fun _ => congrArg (· - 1#3) hretry, nofun, nofun⟩, rfl⟩

/-- The payload check compares with the record, which S_BLOCK has written by then. -/
theorem SameVisible.afterPayloadByte (hv : SameVisible s s') (hst : s.st = .dataCrc) (b : Byte) :
    SameVisible (s.afterPayloadByte b) (s'.afterPayloadByte b) := by
  obtain ⟨h, hagree, rfl⟩ := hv
  have hretry := hagree.retry (by simp [hst])
  have hrecord := hagree.record (.inl hst)
  rw [State.afterPayloadByte_eq, State.afterPayloadByte_eq, show (s.withHidden h).record = s.record from hrecord]
  split
  · exact ⟨{ h with record := s.record, crcb := b }, ⟨fun _ => hretry, fun _ => rfl, nofun⟩, rfl⟩
  · exact ⟨{ h with record := s.record, crcb := b, retry := h.retry - 1#3 },
      ⟨fun _ => congrArg (· - 1#3) hretry, nofun, nofun⟩, rfl⟩

/-- S_BLOCK overwrites the record. -/
theorem SameVisible.afterBlock (hv : SameVisible s s') (hst : s.st = .block) (r : Block) :
    SameVisible (s.afterBlock r) (s'.afterBlock r) := by
  obtain ⟨h, hagree, rfl⟩ := hv
  rw [State.afterBlock_eq, State.afterBlock_eq]
  exact ⟨{ h with record := Memory.ofBlock r }, ⟨fun _ => hagree.retry (by simp [hst]), fun _ => rfl, nofun⟩, rfl⟩

/-- An instruction run in two states that look the same answers states that look the same. -/
theorem SameVisible.exec_next (i : Instr) (hv : SameVisible s s') (he : exec i s = .next t) :
    ∃ t', exec i s' = .next t' ∧ SameVisible t t' := by
  have hv' := hv
  obtain ⟨h, ⟨hretry, hrecord, hres⟩, rfl⟩ := hv'
  cases i with
  | attach =>
    rcases execAttach_next.1 he with ⟨hb, rfl⟩ | ⟨hb, rfl⟩
    · exact ⟨_, execAttach_next.2 (.inl ⟨hb, rfl⟩), h, ⟨hretry, hrecord, hres⟩, rfl⟩
    · exact ⟨_, execAttach_next.2 (.inr ⟨hb, rfl⟩), { h with retry := retryBudget }, ⟨fun _ => rfl, nofun, nofun⟩, rfl⟩
  | detach =>
    rw [execDetach_next.1 he]
    exact ⟨_, execDetach_next.2 rfl, h, ⟨hretry, hrecord, hres⟩, rfl⟩
  | hasIdentity =>
    rw [execHasIdentity_next.1 he]
    exact ⟨_, execHasIdentity_next.2 rfl, h, ⟨hretry, hrecord, hres⟩, rfl⟩
  | classification =>
    rw [execClassification_next.1 he]
    exact ⟨_, execClassification_next.2 rfl, h, ⟨hretry, hrecord, hres⟩, rfl⟩
  | lock =>
    obtain ⟨hst, ⟨hg, rfl⟩ | ⟨hg, rfl⟩⟩ := execLock_next.1 he
    · exact ⟨_, execLock_next.2 ⟨hst, .inl ⟨hg, rfl⟩⟩, h, ⟨fun _ => hretry (by simp [hst]), nofun, nofun⟩, rfl⟩
    · exact ⟨_, execLock_next.2 ⟨hst, .inr ⟨hg, rfl⟩⟩, hv⟩
  | reset =>
    obtain ⟨hst, ⟨hs, p, ps, hp, rfl⟩ | ⟨hw, rfl⟩⟩ := execReset_next.1 he
    · exact ⟨_, execReset_next.2 ⟨hst, .inl ⟨hs, p, ps, hp, rfl⟩⟩,
        (hv.withAnswers ps s.bytesIn s.blocksIn).afterReset hst p⟩
    · exact ⟨_, execReset_next.2 ⟨hst, .inr ⟨hw, rfl⟩⟩, hv⟩
  | write | readRecordFrame =>
    obtain ⟨hst, ⟨hs, rfl⟩ | ⟨hw, rfl⟩⟩ := execWrite_next.1 he
    · exact ⟨_, execWrite_next.2 ⟨hst, .inl ⟨hs, rfl⟩⟩, h, ⟨fun _ => hretry (by simp [hst]), nofun, nofun⟩, rfl⟩
    · exact ⟨_, execWrite_next.2 ⟨hst, .inr ⟨hw, rfl⟩⟩, hv⟩
  | readByte =>
    rcases execReadByte_next.1 he with ⟨hst, hs, b, bs, hb, heq⟩ | ⟨hst, hs, b, bs, hb, heq⟩ | ⟨hst, hw, heq⟩
    · rw [heq]
      exact ⟨_, execReadByte_next.2 (.inl ⟨hst, hs, b, bs, hb, rfl⟩),
        (hv.withAnswers s.presences bs s.blocksIn).afterEchoByte hst b⟩
    · rw [heq]
      exact ⟨_, execReadByte_next.2 (.inr (.inl ⟨hst, hs, b, bs, hb, rfl⟩)),
        (hv.withAnswers s.presences bs s.blocksIn).afterPayloadByte hst b⟩
    · rw [heq]
      exact ⟨_, execReadByte_next.2 (.inr (.inr ⟨hst, hw, rfl⟩)), hv⟩
  | readBlock =>
    obtain ⟨hst, ⟨hs, r, rs, hr, rfl⟩ | ⟨hw, rfl⟩⟩ := execReadBlock_next.1 he
    · exact ⟨_, execReadBlock_next.2 ⟨hst, .inl ⟨hs, r, rs, hr, rfl⟩⟩,
        (hv.withAnswers s.presences s.bytesIn rs).afterBlock hst r⟩
    · exact ⟨_, execReadBlock_next.2 ⟨hst, .inr ⟨hw, rfl⟩⟩, hv⟩
  | unlock =>
    obtain ⟨hst, ⟨hs, rfl⟩ | ⟨hw, rfl⟩⟩ := execUnlock_next.1 he
    · refine ⟨_, execUnlock_next.2 ⟨hst, .inl ⟨hs, rfl⟩⟩, ?_⟩
      rw [show (s.withHidden h).res = s.res from hres hst]
      exact ⟨{ h with res := s.res }, ⟨fun hne => absurd rfl hne, nofun, nofun⟩, rfl⟩
    · exact ⟨_, execUnlock_next.2 ⟨hst, .inr ⟨hw, rfl⟩⟩, hv⟩

/-! ### The turns without an instruction -/

theorem SameVisible.seqCheck (hv : SameVisible s s') (hst : s.st = .check) : SameVisible (seqCheck s) (seqCheck s') := by
  obtain ⟨h, hagree, rfl⟩ := hv
  have hretry := hagree.retry (by simp [hst])
  rw [seqCheck_eq, seqCheck_eq, show (s.withHidden h).retry = s.retry from hretry]
  split
  · exact ⟨{ h with retry := s.retry, res := 4#3 }, ⟨fun _ => rfl, nofun, fun _ => rfl⟩, rfl⟩
  · exact ⟨{ h with retry := s.retry }, ⟨fun _ => rfl, nofun, nofun⟩, rfl⟩

theorem SameVisible.seqParse (hv : SameVisible s s') (hst : s.st = .parse) : SameVisible (seqParse s) (seqParse s') := by
  obtain ⟨h, hagree, rfl⟩ := hv
  have hretry := hagree.retry (by simp [hst])
  have hrecord := hagree.record (.inr (.inl hst))
  rw [seqParse_eq, seqParse_eq, show (s.withHidden h).record = s.record from hrecord]
  split
  · exact ⟨{ h with record := s.record }, ⟨fun _ => hretry, fun _ => rfl, nofun⟩, rfl⟩
  · exact ⟨{ h with record := s.record, res := 5#3 }, ⟨fun _ => hretry, nofun, fun _ => rfl⟩, rfl⟩

theorem SameVisible.seqStore (hv : SameVisible s s') (hst : s.st = .store) : SameVisible (seqStore s) (seqStore s') := by
  obtain ⟨h, hagree, rfl⟩ := hv
  rw [seqStore_eq, seqStore_eq, show (s.withHidden h).record = s.record from hagree.record (.inr (.inr hst))]
  exact ⟨{ h with record := s.record, res := 0#3 }, ⟨fun _ => hagree.retry (by simp [hst]), nofun, fun _ => rfl⟩, rfl⟩

theorem SameVisible.seqInternal (hv : SameVisible s s') : SameVisible (seqInternal s) (seqInternal s') := by
  have hst' : s'.st = s.st := by obtain ⟨h, -, rfl⟩ := hv; rfl
  unfold Machine.seqInternal
  rw [hst']
  cases hst : s.st with
  | check => exact hv.seqCheck hst
  | parse => exact hv.seqParse hst
  | store => exact hv.seqStore hst
  | _ => exact hv

theorem SameVisible.otherTakesBus (hv : SameVisible s s') : SameVisible s.otherTakesBus s'.otherTakesBus := by
  have hlock : s'.holdsLock = s.holdsLock := by obtain ⟨h, -, rfl⟩ := hv; rfl
  unfold State.otherTakesBus
  rw [hlock]
  split
  · exact hv
  · obtain ⟨h, ⟨hretry, hrecord, hres⟩, rfl⟩ := hv
    exact ⟨h, ⟨hretry, hrecord, hres⟩, rfl⟩

/-- The reset event overwrites all hidden registers. -/
theorem SameVisible.resetEvent (hv : SameVisible s s') : SameVisible s.resetEvent s'.resetEvent := by
  obtain ⟨h, -, rfl⟩ := hv
  exact SameVisible.refl _

theorem SameVisible.internal (u : Turn) (hv : SameVisible s s') : SameVisible (internal u s) (internal u s') := by
  cases u with
  | host | frame => exact hv
  | seq => exact hv.seqInternal
  | otherTakes => exact hv.otherTakesBus
  | otherReleases | busStalls | busResumes =>
    obtain ⟨h, ⟨hretry, hrecord, hres⟩, rfl⟩ := hv
    exact ⟨h, ⟨hretry, hrecord, hres⟩, rfl⟩
  | reset => exact hv.resetEvent

/-! ### A step, and a run -/

theorem SameVisible.step_next (hv : SameVisible s s') (he : step s = .next t) :
    ∃ t', step s' = .next t' ∧ SameVisible t t' := by
  unfold step at he ⊢
  rw [hv.fetch_eq]
  split at he
  · cases he
    exact ⟨_, rfl, hv.turn_eq ▸ hv.advance.internal _⟩
  · split at he
    · exact hv.advance.exec_next _ he
    · cases he

/-- A run of one step more answers a state only if its first step does. -/
theorem run_succ_eq_next {M : Host.Core} {s t : M.State} {n : Nat} (hr : M.run (n + 1) s = .next t) :
    ∃ u, M.step s = .next u ∧ M.run n u = .next t := by
  cases hs : M.step s with
  | next u => exact ⟨u, rfl, (run_succ n hs).symm.trans hr⟩
  | fault | refused => rw [Host.Core.run, hs] at hr; cases hr

theorem SameVisible.run_next {n : Nat} {t' : State} (hv : SameVisible s s')
    (hr : Host.Core.run Sys2Proof.core n s = .next t) (hr' : Host.Core.run Sys2Proof.core n s' = .next t') :
    SameVisible t t' := by
  induction n generalizing s s' with
  | zero => cases hr; cases hr'; exact hv
  | succ n ih =>
    obtain ⟨u, hs, hu⟩ := run_succ_eq_next (M := Sys2Proof.core) hr
    obtain ⟨u', hs', hv'⟩ := hv.step_next hs
    rw [core_run_succ n hs'] at hr'
    exact ih hv' hu hr'

end Sys2Proof.Machine

open Sys2Proof.Machine

/-- Settles O58: two idle states look the same whatever their hidden registers hold, and every step keeps that. -/
theorem hiddenRegistersNotObservable : Obligations.HiddenRegistersNotObservable := by
  intro s retry res record crcb n t t' hst _ hr hr'
  have hv : SameVisible s (s.withHidden ⟨retry, res, record, crcb⟩) := .of_idle hst _
  obtain ⟨h, -, rfl⟩ := hv.run_next hr hr'
  exact ⟨rfl, rfl, rfl, rfl, rfl, rfl⟩
end

section
/-! PROOFS. One step is one atomic action of one agent (spec/20_memory.md R58, R62, R64): what it may add to an observable,
and what the turns without an instruction change. -/

namespace Sys2Proof.Machine

variable {s t : State}

/-! ### An observable grows by at most one entry -/

theorem StepCase.busTrace_extended (h : StepCase s t) :
    t.busTrace = s.busTrace ∨ ∃ r : BusRequest, t.busTrace = s.busTrace ++ [r] ∧ r.wf = true := by
  cases h with
  | lockGranted | resetPresent | resetAbsent | write | echoOk | echoBad | block | payloadOk | payloadBad | exit
  | resetHolding => exact .inr ⟨_, rfl, rfl⟩
  | _ => exact .inl rfl

theorem StepCase.diagTrace_extended (h : StepCase s t) :
    t.diagTrace = s.diagTrace ∨ ∃ c, t.diagTrace = s.diagTrace ++ [c] := by
  cases h with
  | checkEmpty | resetAbsent | echoBad | payloadBad | parseBad => exact .inr ⟨_, rfl⟩
  | _ => exact .inl rfl

theorem StepCase.answers_extended (h : StepCase s t) :
    t.answers = s.answers ∨ ∃ a, t.answers = s.answers ++ [a] := by
  cases h with
  | detach | hasIdentity | classification | exit => exact .inr ⟨_, rfl⟩
  | _ => exact .inl rfl

/-! ### Another user takes the bus only while the block does not hold it (R64, R91) -/

theorem State.holdsLock_eq_false_iff : s.holdsLock = false ↔ s.st = .idle ∨ s.st = .lock := by
  rw [← Bool.not_eq_true, State.holdsLock_iff, not_and_or, not_ne_iff, not_ne_iff]

theorem State.otherTakesBus_of_free (h : s.holdsLock = false) : s.otherTakesBus = { s with otherOwns := true } := by
  simp [State.otherTakesBus, h]

theorem State.otherTakesBus_of_holdsLock (h : s.holdsLock = true) : s.otherTakesBus = s := by
  simp [State.otherTakesBus, h]

theorem step_otherTakes_free (hturn : s.turn = .otherTakes) (hst : s.st = .idle ∨ s.st = .lock) :
    step s = .next { s with turns := s.turns.tail, otherOwns := true } := by
  have hfree : s.endTurn.holdsLock = false := State.holdsLock_eq_false_iff.2 hst
  rw [step_otherTakes hturn, State.otherTakesBus_of_free hfree]
  rfl

theorem step_otherTakes_held (hturn : s.turn = .otherTakes) (hidle : s.st ≠ .idle) (hlock : s.st ≠ .lock) :
    step s = .next s.endTurn := by
  have hheld : s.endTurn.holdsLock = true := State.holdsLock_iff.2 ⟨hidle, hlock⟩
  rw [step_otherTakes hturn, State.otherTakesBus_of_holdsLock hheld]

/-- The frame is transmitted in S_WRITE only (R73, R114). -/
theorem step_frame_outside_write (hturn : s.turn = .frame) (hst : s.st ≠ .write) : step s = .next s.endTurn := by
  rw [step_frame hturn, if_neg hst]

end Sys2Proof.Machine

open Sys2Proof.Machine

/-- Settles O43, observable by observable. -/
theorem oneRequestPerStep : Obligations.OneRequestPerStep := by
  intro s t h
  have hcase := step_cases h
  exact ⟨hcase.busTrace_extended, hcase.diagTrace_extended, hcase.answers_extended⟩

/-- Settles O60, turn by turn. -/
theorem environmentTurnsFrame : Obligations.EnvironmentTurnsFrame := fun _ =>
  ⟨step_otherTakes_free, step_otherTakes_held, step_otherReleases, step_busStalls, step_busResumes,
    step_frame_outside_write, fun _ => step_host_none⟩
end


section
/-! PROOFS. The encodings (spec/30_encoding.md R71 to R79): what each format's decoder accepts, that decoding and
encoding are inverse to each other, and the codes of the fault kinds. -/

namespace Sys2Proof.Machine

variable {i : Instr} {bytes rest : List Byte}

/-! ### A code on its port: the low bits of one byte -/

/-- A byte whose value fits in `n` bits is the `n`-bit code in its low bits, widened again. -/
theorem setWidth_setWidth_of_lt {n : Nat} {b : Byte} (h : b.toNat < 2 ^ n) : (b.setWidth n).setWidth 8 = b :=
  BitVec.eq_of_toNat_eq <| by
    rw [BitVec.toNat_setWidth, BitVec.toNat_setWidth, Nat.mod_eq_of_lt h, Nat.mod_eq_of_lt b.isLt]

/-! ### Format HC (R71, R78) -/

theorem encode_decodeHc : ∀ op : HcCode, encode (decodeHc op) = [op.setWidth 8] := by decide

theorem format_decodeHc : ∀ op : HcCode, (decodeHc op).format = .hc := by decide

/-- Distinct codes are distinct commands: the encoder gives the code back. -/
theorem decodeHc_injective {op op' : HcCode} (h : decodeHc op = decodeHc op') : op = op' := by
  have hbyte : op.setWidth 8 = op'.setWidth 8 := by
    simpa [encode_decodeHc] using congrArg encode h
  calc op = (op.setWidth 8).setWidth 2 := by simp
    _ = (op'.setWidth 8).setWidth 2 := by rw [hbyte]
    _ = op' := by simp

theorem decode_hc_eq_ok (h : decode .hc bytes = .ok (i, rest)) :
    ∃ op : HcCode, bytes = op.setWidth 8 :: rest ∧ decodeHc op = i := by
  cases bytes with
  | nil => cases h
  | cons b bs =>
    by_cases hb : b.toNat < 4
    · rw [decode, if_pos hb] at h
      cases h
      exact ⟨_, by rw [setWidth_setWidth_of_lt hb], rfl⟩
    · rw [decode, if_neg hb] at h
      cases h

/-! ### Format BR (R72, R79) -/

theorem decode_br (c : Code3) (rest : List Byte) :
    decode .br (c.setWidth 8 :: rest) = (decodeBr c).map (·, rest) := by
  have h : (c.setWidth 8).toNat < 8 ∧ (c.setWidth 8).setWidth 3 = c := by revert c; decide
  rw [decode, if_pos h.1, h.2]

/-- A code that is a request is the encoding of that request. -/
theorem encode_of_decodeBr :
    ∀ c : Code3, ∀ i ∈ (decodeBr c).toOption, i.format = .br ∧ encode i = [c.setWidth 8] := by decide

theorem decode_br_eq_ok (h : decode .br bytes = .ok (i, rest)) :
    ∃ c : Code3, bytes = c.setWidth 8 :: rest ∧ decodeBr c = .ok i := by
  cases bytes with
  | nil => cases h
  | cons b bs =>
    by_cases hb : b.toNat < 8
    · rw [decode, if_pos hb] at h
      cases hd : decodeBr (b.setWidth 3) with
      | error e => rw [hd] at h; cases h
      | ok j =>
        rw [hd] at h
        cases h
        exact ⟨_, by rw [setWidth_setWidth_of_lt hb], hd⟩
    · rw [decode, if_neg hb] at h
      cases h

/-! ### Format W1 (R73, R79) -/

theorem decode_w1_of_ne {b0 b1 b2 b3 : Byte} (h : [b0, b1, b2, b3] ≠ commandFrame) (rest : List Byte) :
    decode .w1 (b0 :: b1 :: b2 :: b3 :: rest) = .error (.unknownFrame b0 b1 b2 b3) := by
  have hne : ¬(b0 = skipRom ∧ b1 = readMemoryFieldCrc ∧ b2 = addrByte0 ∧ b3 = addrByte1) := by
    simpa [commandFrame] using h
  rw [decode, decodeW1, if_neg hne]
  rfl

theorem decode_w1_eq_ok (h : decode .w1 bytes = .ok (i, rest)) :
    i = .readRecordFrame ∧ bytes = commandFrame ++ rest := by
  match bytes, h with
  | b0 :: b1 :: b2 :: b3 :: bs, h =>
    by_cases hf : [b0, b1, b2, b3] = commandFrame
    · cases hf
      cases h
      exact ⟨rfl, rfl⟩
    · rw [decode_w1_of_ne hf] at h
      cases h

/-! ### Decoding and encoding (R71 to R73) -/

theorem decode_encode (i : Instr) (rest : List Byte) : decode i.format (encode i ++ rest) = .ok (i, rest) := by
  cases i <;> rfl

theorem eq_encode_of_decode {f : Format} (h : decode f bytes = .ok (i, rest)) :
    f = i.format ∧ bytes = encode i ++ rest := by
  cases f with
  | hc =>
    obtain ⟨op, rfl, rfl⟩ := decode_hc_eq_ok h
    rw [format_decodeHc, encode_decodeHc]
    exact ⟨rfl, rfl⟩
  | br =>
    obtain ⟨c, rfl, hc⟩ := decode_br_eq_ok h
    obtain ⟨hformat, hencode⟩ := encode_of_decodeBr c i (by rw [hc]; rfl)
    rw [hformat, hencode]
    exact ⟨rfl, rfl⟩
  | w1 =>
    obtain ⟨rfl, rfl⟩ := decode_w1_eq_ok h
    exact ⟨rfl, rfl⟩

/-! ### The fault codes (R75) -/

theorem ofCode_code (e : Err) : Err.ofCode e.code = some e := by
  cases e <;> rfl

theorem eq_code_of_ofCode : ∀ c : Code3, ∀ e ∈ Err.ofCode c, c = e.code := by decide

end Sys2Proof.Machine

open Sys2Proof.Machine

/-- Settles O2, format by format. -/
theorem decodeEncodeAgree : Obligations.DecodeEncodeAgree :=
  ⟨decode_encode, fun _ _ _ _ => eq_encode_of_decode⟩

/-- Settles O1: the literal words of the spec's tables, each decoded. -/
theorem specWordsDecode : Obligations.SpecWordsDecode := by
  unfold Obligations.SpecWordsDecode
  decide

/-- Settles O3: `decodeHc` is total, and `encode` gives the code back. -/
theorem hostDecoderTotal : Obligations.HostDecoderTotal :=
  ⟨fun op rest => ⟨_, format_decodeHc op, decode_hc op rest⟩, fun _ _ => decodeHc_injective⟩

/-- Settles O4, format by format. -/
theorem reservedEncodingsRejected : Obligations.ReservedEncodingsRejected :=
  ⟨fun rest => ⟨decode_br 6 rest, decode_br 7 rest⟩, fun _ _ _ _ rest h => decode_w1_of_ne h rest, rfl, rfl⟩

/-- Settles O5: the codes and classes row by row, and `Err.ofCode` as the inverse of `Err.code`. -/
theorem faultCodesNumbered : Obligations.FaultCodesNumbered := by
  refine ⟨rfl, rfl, rfl, rfl, rfl, rfl, fun c e => ⟨eq_code_of_ofCode c e, ?_⟩, rfl⟩
  rintro rfl
  exact ofCode_code e

/-- Settles O20: the frame is the payload of WRITE, so its step is the one WRITE takes when the bus master answers. -/
theorem frameTransmitsItself : Obligations.FrameTransmitsItself := by
  intro s hst hstalled
  have hexec : exec .readRecordFrame s = execWrite s := execReadRecordFrame_eq
  rw [hexec]
  exact execWrite_next.2 ⟨hst, .inl ⟨hstalled, rfl⟩⟩
end

section
/-! PROOFS. The bus discipline (spec/40_bus_interface.md R90 to R98): where a request is issued, when it waits, what it
leaves unchanged, and the grammar of the trace that the requests of an attach leave. -/

namespace Sys2Proof.Machine

variable {s t : State}

/-! ### A trace that stands where the sequencer stands, after one more request (R98) -/

/-- A request that the grammar allows in every phase of the sequencer's state takes the trace to its next phase. -/
theorem State.traceInPhase.scan_concat {x : SeqState} {r : BusRequest} {q : BusPhase} (hs : s.traceInPhase)
    (hst : s.st = x) (hnext : ∀ p ∈ x.phases, p.next r = some q) :
    scanTrace (s.busTrace ++ [r]) .outside = some q := by
  obtain ⟨p, hp, hscan, -⟩ := hs
  rw [scanTrace_append, hscan]
  exact hnext p (hst ▸ hp)

/-- While the block does not hold the lock, every bracket of the trace is closed (R64). -/
theorem State.traceInPhase.scan_of_free (hs : s.traceInPhase) (hfree : s.holdsLock = false) :
    scanTrace s.busTrace .outside = some .outside := by
  obtain ⟨p, hp, hscan, -⟩ := hs
  have hout : p = .outside := by
    rcases State.holdsLock_eq_false_iff.1 hfree with hst | hst <;> simpa [hst, SeqState.phases] using hp
  rw [hscan, hout]

theorem SeqState.outside_mem_phases {x : SeqState} : .outside ∈ x.phases ↔ x = .idle ∨ x = .lock := by
  cases x <;> simp [SeqState.phases]

/-- While the block holds the lock, UNLOCK closes the bracket, whatever has been issued in it (R98, R212). -/
theorem next_unlock_of_holdsLock (hheld : s.holdsLock = true) : ∀ p ∈ s.st.phases, p.next .unlock = some .outside := by
  intro p hp
  cases p with
  | outside =>
    obtain ⟨hidle, hlock⟩ := State.holdsLock_iff.1 hheld
    exact (SeqState.outside_mem_phases.1 hp).elim (absurd · hidle) (absurd · hlock)
  | _ => rfl

/-- Every request is one that the grammar allows in the sequencer's phase; S_CHECK ends an attach only after an attempt,
since before the first one the whole budget is left (R98, R110, R112). -/
theorem StepCase.keeps_traceInPhase (h : StepCase s t) (hinv : s.Inv) (hs : s.traceInPhase) : t.traceInPhase := by
  obtain ⟨hbusy, -, -, hfullAtLock, -⟩ := hinv
  cases h with
  | attachAccepted _ _ _ _ hnotBusy =>
    have hfree : s.holdsLock = false := State.holdsLock_eq_false_iff.2 (.inl (hbusy.1 hnotBusy))
    exact ⟨.outside, List.mem_cons_self, hs.scan_of_free hfree, nofun⟩
  | lockGranted _ hst =>
    exact ⟨.locked, List.mem_cons_self, hs.scan_concat hst (by decide), fun _ => hfullAtLock hst⟩
  | checkEmpty _ hst hretry =>
    obtain ⟨p, hp, hscan, hfull⟩ := hs
    have hne : p ≠ .locked := fun he => absurd (hretry.symm.trans (hfull he)) (by decide)
    exact ⟨p, by simpa [hst, SeqState.phases, hne] using hp, hscan, hfull⟩
  | checkGo _ hst | parseOk _ hst =>
    obtain ⟨p, hp, hscan, hfull⟩ := hs
    exact ⟨p, by simpa [hst, SeqState.phases] using hp, hscan, hfull⟩
  | parseBad _ hst | store _ hst =>
    obtain ⟨p, hp, hscan, -⟩ := hs
    obtain rfl : p = .afterPayload := by simpa [hst, SeqState.phases] using hp
    exact ⟨.afterPayload, by simp [SeqState.phases], hscan, nofun⟩
  | resetPresent _ _ hst | resetAbsent _ _ hst =>
    exact ⟨.afterReset, by simp [SeqState.phases], hs.scan_concat hst (by decide), nofun⟩
  | write _ hst => exact ⟨.afterWrite, List.mem_cons_self, hs.scan_concat hst (by decide), nofun⟩
  | echoOk _ _ hst | echoBad _ _ _ hst =>
    exact ⟨.afterEcho, by simp [SeqState.phases], hs.scan_concat hst (by decide), nofun⟩
  | block _ _ _ hst => exact ⟨.afterBlock, List.mem_cons_self, hs.scan_concat hst (by decide), nofun⟩
  | payloadOk _ _ _ hst | payloadBad _ _ _ hst =>
    exact ⟨.afterPayload, by simp [SeqState.phases], hs.scan_concat hst (by decide), nofun⟩
  | exit _ hst => exact ⟨.outside, List.mem_cons_self, hs.scan_concat hst (by decide), nofun⟩
  | resetHolding _ hheld =>
    exact ⟨.outside, List.mem_cons_self, hs.scan_concat rfl (next_unlock_of_holdsLock hheld), nofun⟩
  | resetFree _ hfree => exact ⟨.outside, List.mem_cons_self, hs.scan_of_free hfree, nofun⟩
  | _ => exact hs

/-! ### A request outside the states that issue it (R98) -/

theorem execReadByte_of_not_issued (hecho : s.st ≠ .cmdCrc) (hpayload : s.st ≠ .dataCrc) :
    execReadByte s = .fault (.requestNotIssued s.st) := by
  rw [execReadByte, if_neg hecho, if_neg hpayload]

/-- Each meaning tests first whether the sequencer stands where the request is issued. -/
theorem exec_of_not_issued {i : Instr} (hbus : i.format ≠ .hc) (hst : s.st ∉ Instr.issuedIn i) :
    exec i s = .fault (.requestNotIssued s.st) := by
  cases i with
  | attach | detach | hasIdentity | classification => exact absurd rfl hbus
  | readByte =>
    obtain ⟨hecho, hpayload⟩ : s.st ≠ .cmdCrc ∧ s.st ≠ .dataCrc := by simpa [Instr.issuedIn] using hst
    exact execReadByte_of_not_issued hecho hpayload
  | lock | reset | write | readBlock | unlock | readRecordFrame => exact if_neg (List.ne_of_not_mem_cons hst)

/-! ### A request that the bus master cannot complete (R90, R111) -/

theorem execLock_waits (hst : s.st = .lock) (hwait : ¬s.answerReady) : execLock s = .next s := by
  have hdenied : s.lockGranted = false := by simpa [State.answerReady, hst, ← State.lockGranted_iff] using hwait
  exact execLock_next.2 ⟨hst, .inr ⟨hdenied, rfl⟩⟩

theorem execReset_waits (hst : s.st = .reset) (hwait : ¬s.answerReady) : execReset s = .next s := by
  have hnone : s.stalled = true ∨ s.presences = [] := by
    simpa [State.answerReady, hst, imp_iff_not_or] using hwait
  exact execReset_next.2 ⟨hst, .inr ⟨hnone, rfl⟩⟩

theorem execWrite_waits (hst : s.st = .write) (hwait : ¬s.answerReady) : execWrite s = .next s := by
  have hstalled : s.stalled = true := by simpa [State.answerReady, hst] using hwait
  exact execWrite_next.2 ⟨hst, .inr ⟨hstalled, rfl⟩⟩

theorem execReadByte_waits (hst : s.st = .cmdCrc ∨ s.st = .dataCrc) (hwait : ¬s.answerReady) :
    execReadByte s = .next s := by
  have hnone : s.stalled = true ∨ s.bytesIn = [] := by
    rcases hst with hst | hst <;> simpa [State.answerReady, hst, imp_iff_not_or] using hwait
  exact execReadByte_next.2 (.inr (.inr ⟨hst, hnone, rfl⟩))

theorem execReadBlock_waits (hst : s.st = .block) (hwait : ¬s.answerReady) : execReadBlock s = .next s := by
  have hnone : s.stalled = true ∨ s.blocksIn = [] := by
    simpa [State.answerReady, hst, imp_iff_not_or] using hwait
  exact execReadBlock_next.2 ⟨hst, .inr ⟨hnone, rfl⟩⟩

theorem execUnlock_waits (hst : s.st = .exit) (hwait : ¬s.answerReady) : execUnlock s = .next s := by
  have hstalled : s.stalled = true := by simpa [State.answerReady, hst] using hwait
  exact execUnlock_next.2 ⟨hst, .inr ⟨hstalled, rfl⟩⟩

end Sys2Proof.Machine

open Sys2Proof.Machine

/-- Settles O48: every step takes the trace from a phase of the sequencer's state to one of its next state. -/
theorem busTraceFollowsGrammar : Obligations.BusTraceFollowsGrammar :=
  fun _ _ hinv hphase h => (step_cases h).keeps_traceInPhase hinv hphase

/-- Settles O26, request by request. -/
theorem requestsOnlyWhereIssued : Obligations.RequestsOnlyWhereIssued :=
  fun _ _ => exec_of_not_issued

/-- Settles O25, request by request; the frame is the payload of WRITE and waits with it. -/
theorem unansweredRequestWaits : Obligations.UnansweredRequestWaits := by
  intro i s hst hwait
  cases i with
  | attach | detach | hasIdentity | classification => cases hst
  | lock => exact execLock_waits (List.mem_singleton.1 hst) hwait
  | reset => exact execReset_waits (List.mem_singleton.1 hst) hwait
  | write | readRecordFrame => exact execWrite_waits (List.mem_singleton.1 hst) hwait
  | readByte => exact execReadByte_waits (List.mem_pair.1 hst) hwait
  | readBlock => exact execReadBlock_waits (List.mem_singleton.1 hst) hwait
  | unlock => exact execUnlock_waits (List.mem_singleton.1 hst) hwait

/-- Settles O27, outcome by outcome: each request either waits or makes the updates of its own step. -/
theorem busRequestFrame : Obligations.BusRequestFrame := by
  intro i s t hbus h
  cases i with
  | attach | detach | hasIdentity | classification => exact absurd rfl hbus
  | lock => obtain ⟨-, ⟨-, rfl⟩ | ⟨-, rfl⟩⟩ := execLock_next.1 h <;> simp
  | reset =>
    obtain ⟨-, ⟨-, p, ps, -, rfl⟩ | ⟨-, rfl⟩⟩ := execReset_next.1 h
    · cases p <;> simp [State.afterReset_eq]
    · simp
  | write | readRecordFrame => obtain ⟨-, ⟨-, rfl⟩ | ⟨-, rfl⟩⟩ := execWrite_next.1 h <;> simp
  | readByte =>
    obtain ⟨-, -, b, bs, -, he⟩ | ⟨-, -, b, bs, -, he⟩ | ⟨-, -, rfl⟩ := execReadByte_next.1 h
    · rw [he, State.afterEchoByte_eq]; split <;> simp
    · rw [he, State.afterPayloadByte_eq]; split <;> simp
    · simp
  | readBlock =>
    obtain ⟨-, ⟨-, r, rs, -, rfl⟩ | ⟨-, rfl⟩⟩ := execReadBlock_next.1 h
    · simp [State.afterBlock_eq]
    · simp
  | unlock => obtain ⟨-, ⟨-, rfl⟩ | ⟨-, rfl⟩⟩ := execUnlock_next.1 h <;> simp
end

section
/-! PROOFS. ATTACH and the steps of the attach sequencer (spec/41_attach_sequencer.md R110 to R120), one rule per step: the
whole next state under conditions on the state alone. -/

namespace Sys2Proof.Machine

variable {s t : State}

/-! ### ATTACH is accepted or held (R110) -/

theorem execAttach_idle (hbusy : s.busy = false) : execAttach s = .next s.acceptAttach :=
  execAttach_next.2 (.inr ⟨hbusy, rfl⟩)

theorem execAttach_busy (hbusy : s.busy = true) : execAttach s = .next s.holdAttach :=
  execAttach_next.2 (.inl ⟨hbusy, rfl⟩)

theorem State.mem_holdAttach_held {ctx : Nat} : ctx ∈ s.holdAttach.held ↔ ctx ∈ s.held ∨ ctx = s.issuer := by
  rw [State.holdAttach_held]
  split
  · next hmem => exact ⟨.inl, fun h => h.elim id fun he => he ▸ hmem⟩
  · rw [List.mem_append, List.mem_singleton]

/-- A held ATTACH is presented without using up a command of its context. -/
theorem step_held_attach {ctx : Nat} (hturn : s.turn = .host ctx) (hheld : ctx ∈ s.held) (hbusy : s.busy = false) :
    step s = execAttach { s with turns := s.turns.tail, issuer := ctx } := by
  have hfree : ¬(s.busy = true ∧ s.server = ctx) := by simp [hbusy]
  rw [step_of_fetch (fetch_host_some hturn (State.hostCode_held hfree hheld)) (decode_hc 0 []),
    advance_host_held hturn hfree hheld]
  rfl

/-- Only the acceptance of its own ATTACH takes a context out of the held ones (R110 a, R198 b). -/
theorem StepCase.held_kept_or_accepted {ctx : Nat} (h : StepCase s t) (hheld : ctx ∈ s.held) :
    ctx ∈ t.held ∨
      (s.turn = .host ctx ∧ s.busy = false ∧ t.busy = true ∧ t.server = ctx ∧ t.st = .lock ∧ t.retry = 5#3) := by
  cases h with
  | attachHeld ctx' =>
    refine .inl (show ctx ∈ if ctx' ∈ s.held then s.held else s.held ++ [ctx'] from ?_)
    split
    · exact hheld
    · exact List.mem_append_left _ hheld
  | attachAccepted ctx' _ hturn _ hbusy =>
    by_cases he : ctx = ctx'
    · subst he
      exact .inr ⟨hturn, hbusy, rfl, rfl, rfl, rfl⟩
    · exact .inl ((List.mem_erase_of_ne he).2 hheld)
  | _ => exact .inl hheld

/-! ### The steps that issue a request, once the bus master answers (R111, R113 to R117, R120) -/

theorem execLock_granted (hst : s.st = .lock) (hstalled : s.stalled = false) (hfree : s.otherOwns = false) :
    execLock s = .next { s with busTrace := s.busTrace ++ [.lock], st := .check } :=
  execLock_next.2 ⟨hst, .inl ⟨State.lockGranted_iff.2 ⟨hstalled, hfree⟩, rfl⟩⟩

theorem execReset_present {ps : List Presence} (hst : s.st = .reset) (hstalled : s.stalled = false)
    (hp : s.presences = .present :: ps) :
    execReset s = .next { s with presences := ps, busTrace := s.busTrace ++ [.reset], st := .write } :=
  execReset_next.2 ⟨hst, .inl ⟨hstalled, .present, ps, hp, rfl⟩⟩

theorem execReset_absent {ps : List Presence} (hst : s.st = .reset) (hstalled : s.stalled = false)
    (hp : s.presences = .absent :: ps) :
    execReset s =
      .next { s with presences := ps, busTrace := s.busTrace ++ [.reset], diagTrace := s.diagTrace ++ [1#3],
                     retry := s.retry - 1#3, st := .check } :=
  execReset_next.2 ⟨hst, .inl ⟨hstalled, .absent, ps, hp, rfl⟩⟩

theorem execWrite_answered (hst : s.st = .write) (hstalled : s.stalled = false) :
    execWrite s = .next { s with busTrace := s.busTrace ++ [.write commandFrame], st := .cmdCrc } :=
  execWrite_next.2 ⟨hst, .inl ⟨hstalled, rfl⟩⟩

theorem execReadByte_echo {b : Byte} {bs : List Byte} (hst : s.st = .cmdCrc) (hstalled : s.stalled = false)
    (hb : s.bytesIn = b :: bs) : execReadByte s = .next (State.afterEchoByte { s with bytesIn := bs } b) :=
  execReadByte_next.2 (.inl ⟨hst, hstalled, b, bs, hb, rfl⟩)

theorem execReadByte_echoOk {b : Byte} {bs : List Byte} (hst : s.st = .cmdCrc) (hstalled : s.stalled = false)
    (hb : s.bytesIn = b :: bs) (hok : b = 0x8D#8) :
    execReadByte s =
      .next { s with bytesIn := bs, busTrace := s.busTrace ++ [.readByte], crcb := b, st := .block } := by
  rw [execReadByte_echo hst hstalled hb, State.afterEchoByte_eq, if_pos hok]

theorem execReadByte_echoBad {b : Byte} {bs : List Byte} (hst : s.st = .cmdCrc) (hstalled : s.stalled = false)
    (hb : s.bytesIn = b :: bs) (hbad : b ≠ 0x8D#8) :
    execReadByte s =
      .next { s with bytesIn := bs, busTrace := s.busTrace ++ [.readByte], crcb := b,
                     diagTrace := s.diagTrace ++ [2#3], retry := s.retry - 1#3, st := .check } := by
  rw [execReadByte_echo hst hstalled hb, State.afterEchoByte_eq, if_neg hbad]

theorem execReadBlock_answered {r : Block} {rs : List Block} (hst : s.st = .block) (hstalled : s.stalled = false)
    (hr : s.blocksIn = r :: rs) :
    execReadBlock s =
      .next { s with blocksIn := rs, busTrace := s.busTrace ++ [.readBlock 128], record := Memory.ofBlock r,
                     st := .dataCrc } :=
  execReadBlock_next.2 ⟨hst, .inl ⟨hstalled, r, rs, hr, rfl⟩⟩

theorem execReadByte_payload {b : Byte} {bs : List Byte} (hst : s.st = .dataCrc) (hstalled : s.stalled = false)
    (hb : s.bytesIn = b :: bs) : execReadByte s = .next (State.afterPayloadByte { s with bytesIn := bs } b) :=
  execReadByte_next.2 (.inr (.inl ⟨hst, hstalled, b, bs, hb, rfl⟩))

theorem execReadByte_payloadOk {b : Byte} {bs : List Byte} (hst : s.st = .dataCrc) (hstalled : s.stalled = false)
    (hb : s.bytesIn = b :: bs) (hok : b = crc8 s.record.bytes) :
    execReadByte s =
      .next { s with bytesIn := bs, busTrace := s.busTrace ++ [.readByte], crcb := b, st := .parse } := by
  rw [execReadByte_payload hst hstalled hb, State.afterPayloadByte_eq, if_pos hok]

theorem execReadByte_payloadBad {b : Byte} {bs : List Byte} (hst : s.st = .dataCrc) (hstalled : s.stalled = false)
    (hb : s.bytesIn = b :: bs) (hbad : b ≠ crc8 s.record.bytes) :
    execReadByte s =
      .next { s with bytesIn := bs, busTrace := s.busTrace ++ [.readByte], crcb := b,
                     diagTrace := s.diagTrace ++ [3#3], retry := s.retry - 1#3, st := .check } := by
  rw [execReadByte_payload hst hstalled hb, State.afterPayloadByte_eq, if_neg hbad]

theorem execUnlock_answered (hst : s.st = .exit) (hstalled : s.stalled = false) :
    execUnlock s =
      .next { s with busTrace := s.busTrace ++ [.unlock], answers := s.answers ++ [(s.server, .err s.res)],
                     busy := false, st := .idle } :=
  execUnlock_next.2 ⟨hst, .inl ⟨hstalled, rfl⟩⟩

/-! ### The steps that issue no request (R112, R118, R119) -/

theorem step_check (hturn : s.turn = .seq) (hst : s.st = .check) : step s = .next (seqCheck s.endTurn) := by
  rw [step_seq hturn, hst]

theorem step_parse (hturn : s.turn = .seq) (hst : s.st = .parse) : step s = .next (seqParse s.endTurn) := by
  rw [step_seq hturn, hst]

theorem step_store (hturn : s.turn = .seq) (hst : s.st = .store) : step s = .next (seqStore s.endTurn) := by
  rw [step_seq hturn, hst]

theorem step_check_empty (hturn : s.turn = .seq) (hst : s.st = .check) (hretry : s.retry = 0#3) :
    step s = .next { s with turns := s.turns.tail, diagTrace := s.diagTrace ++ [4#3], res := 4#3, st := .exit } := by
  rw [step_check hturn hst, seqCheck_eq, if_pos (show s.endTurn.retry = 0#3 from hretry)]
  rfl

theorem step_check_left (hturn : s.turn = .seq) (hst : s.st = .check) (hretry : s.retry ≠ 0#3) :
    step s = .next { s with turns := s.turns.tail, st := .reset } := by
  rw [step_check hturn hst, seqCheck_eq, if_neg (show s.endTurn.retry ≠ 0#3 from hretry)]
  rfl

theorem step_parse_bad (hturn : s.turn = .seq) (hst : s.st = .parse) (hmagic : magic s.record ≠ 0xE54C21ED#32) :
    step s = .next { s with turns := s.turns.tail, diagTrace := s.diagTrace ++ [5#3], res := 5#3, st := .exit } := by
  rw [step_parse hturn hst, seqParse_eq, if_neg (show magic s.endTurn.record ≠ _ from hmagic)]
  rfl

theorem step_parse_ok (hturn : s.turn = .seq) (hst : s.st = .parse) (hmagic : magic s.record = 0xE54C21ED#32) :
    step s = .next { s with turns := s.turns.tail, st := .store } := by
  rw [step_parse hturn hst, seqParse_eq, if_pos (show magic s.endTurn.record = _ from hmagic)]
  rfl

/-- The two fields do not overlap, so their `|` is a concatenation, the low byte last (R154). -/
theorem identifier_eq_append (c : Config) (m : Memory) : identifier c m = idHigh c m ++ idLow c m := by
  have hlt : (idHigh c m).toNat <<< 8 < 2 ^ 32 := by
    rw [Nat.shiftLeft_eq]
    have := (idHigh c m).isLt
    omega
  refine BitVec.eq_of_toNat_eq ?_
  rw [identifier, BitVec.toNat_or, BitVec.toNat_shiftLeft, BitVec.toNat_setWidth_of_le (by decide),
    BitVec.toNat_setWidth_of_le (by decide), Nat.mod_eq_of_lt hlt, BitVec.toNat_append, Nat.or_comm]

end Sys2Proof.Machine

open Sys2Proof.Machine

/-- Settles O10: of the cases of a step, only an acceptance removes a held context, its own. -/
theorem heldAttachNotDropped : Obligations.HeldAttachNotDropped :=
  fun _ _ _ hheld h => (step_cases h).held_kept_or_accepted hheld

/-- Settles O8: the acceptance step. -/
theorem attachAcceptedWhenIdle : Obligations.AttachAcceptedWhenIdle :=
  fun _ => execAttach_idle

/-- Settles O9: holding an ATTACH adds the issuer to the held contexts. -/
theorem attachHeldWhileBusy : Obligations.AttachHeldWhileBusy := fun s hbusy =>
  ⟨s.holdAttach, execAttach_busy hbusy, State.mem_holdAttach_held.2 (.inr rfl), fun _ => State.mem_holdAttach_held, rfl⟩

/-- Settles O11: the held ATTACH is presented again, and accepted as any other. -/
theorem heldAttachAcceptedLater : Obligations.HeldAttachAcceptedLater := fun _ _ hturn hheld hbusy =>
  (step_held_attach hturn hheld hbusy).trans (execAttach_idle hbusy)

/-- Settles O16, for a held and for an accepted ATTACH. -/
theorem attachFrame : Obligations.AttachFrame := by
  intro s t h
  obtain ⟨-, rfl⟩ | ⟨hbusy, rfl⟩ := execAttach_next.1 h
  · simp
  · simp [hbusy]

/-- Settles O17: granted, or not answerable. -/
theorem lockWaitsForGrant : Obligations.LockWaitsForGrant := by
  refine ⟨fun _ => execLock_granted, fun s hst howned => execLock_waits hst fun ⟨_, hfree, _⟩ => ?_⟩
  exact absurd (howned.symm.trans (hfree hst)) (by decide)

/-- Settles O18, one rule for each answer. -/
theorem resetTestsPresence : Obligations.ResetTestsPresence :=
  ⟨fun _ _ => execReset_present, fun _ _ => execReset_absent⟩

/-- Settles O19: the command frame is the payload. -/
theorem writeTransmitsFrame : Obligations.WriteTransmitsFrame :=
  fun _ => execWrite_answered

/-- Settles O21, one rule for each outcome of the test. -/
theorem echoByteChecked : Obligations.EchoByteChecked := fun _ _ _ hst hstalled hb =>
  ⟨execReadByte_echoOk hst hstalled hb, execReadByte_echoBad hst hstalled hb⟩

/-- Settles O22: the record is the block received. -/
theorem blockFillsRecord : Obligations.BlockFillsRecord := fun _ r _ hst hstalled hr =>
  ⟨_, execReadBlock_answered hst hstalled hr, Memory.read_ofBlock r, Memory.bytes_ofBlock r, Memory.ofBlock_wf r, rfl⟩

/-- Settles O23, one rule for each outcome of the test. -/
theorem payloadByteChecked : Obligations.PayloadByteChecked := fun _ _ _ hst hstalled hb =>
  ⟨execReadByte_payloadOk hst hstalled hb, execReadByte_payloadBad hst hstalled hb⟩

/-- Settles O24: the end of an attach. -/
theorem unlockAnswersAttach : Obligations.UnlockAnswersAttach :=
  fun _ => execUnlock_answered

/-- Settles O28, one rule for each outcome of the test. -/
theorem checkTestsBudget : Obligations.CheckTestsBudget := fun _ hturn hst =>
  ⟨step_check_empty hturn hst, step_check_left hturn hst⟩

/-- Settles O29: the four bytes are the magic, and there is one rule for each outcome of the test. -/
theorem parseTestsMagic : Obligations.ParseTestsMagic := fun _ hturn hst =>
  ⟨step_parse_bad hturn hst, step_parse_ok hturn hst⟩

/-- Settles O30: the identifier is its four bytes joined. -/
theorem storeWritesIdentity : Obligations.StoreWritesIdentity := by
  intro s hturn hst
  rw [step_store hturn hst, seqStore_eq, identifier_eq_append]
  rfl
end

section
/-! PROOFS. The whole attach (spec/41_attach_sequencer.md R122 to R125) with an empty schedule: a rule per sequencer step
that counts steps, requests and events, composed into attempts, and attempts into an attach. -/

namespace Sys2Proof.Machine

variable {s s₀ t : State} {n n' k k' j : Nat} {es es' : List Code3} {P Q : State → Prop}
variable {ps : List Presence} {bs : List Byte} {rs : List Block} {a : Attempt}

/-! ### Runs with their cost -/

/-- The run from `s` comes, within `n` steps and `k` bus requests and with exactly the events `es`, to a state of `P`. -/
def State.Attains (s : State) (n k : Nat) (es : List Code3) (P : State → Prop) : Prop :=
  ∃ m ≤ n, ∃ t, Host.Core.run Sys2Proof.core m s = .next t ∧ t.busTrace.length ≤ s.busTrace.length + k ∧
    t.diagTrace = s.diagTrace ++ es ∧ P t

theorem State.Attains.refl (h : P s) : s.Attains 0 0 [] P :=
  ⟨0, le_rfl, s, rfl, le_rfl, (List.append_nil _).symm, h⟩

theorem State.Attains.of_step (hstep : step s = .next t) (hreq : t.busTrace.length ≤ s.busTrace.length + k)
    (hev : t.diagTrace = s.diagTrace ++ es) (h : P t) : s.Attains 1 k es P :=
  ⟨1, le_rfl, t, core_run_succ 0 hstep, hreq, hev, h⟩

theorem State.Attains.mono (h : s.Attains n k es P) (hn : n ≤ n') (hk : k ≤ k') : s.Attains n' k' es P := by
  obtain ⟨m, hm, t, hrun, hreq, hev, hP⟩ := h
  exact ⟨m, hm.trans hn, t, hrun, by omega, hev, hP⟩

/-- Two runs after each other: steps and requests add up, and so do the events. -/
theorem State.Attains.bind (h : s.Attains n k es P) (h' : ∀ t, P t → t.Attains n' k' es' Q) :
    s.Attains (n + n') (k + k') (es ++ es') Q := by
  obtain ⟨m, hm, t, hrun, hreq, hev, hP⟩ := h
  obtain ⟨m', hm', u, hrun', hreq', hev', hQ⟩ := h' t hP
  exact ⟨m + m', by omega, u, by rw [core_run_add m m' hrun, hrun'], by omega,
    by rw [hev', hev, List.append_assoc], hQ⟩

/-! ### Where an attach stands -/

/-- In the attach that began in `s₀`, nobody else moves, the sequencer stands in `x` with `j` retries left, and the bus
master has the answers `ps`, `bs` and `rs` ready. -/
structure AttachAt (s₀ : State) (x : SeqState) (j : Nat) (ps : List Presence) (bs : List Byte) (rs : List Block)
    (t : State) : Prop where
  st : t.st = x
  turns : t.turns = []
  stalled : t.stalled = false
  retry : t.retry.toNat = j
  identity : t.identity = s₀.identity
  cfg : t.cfg = s₀.cfg
  server : t.server = s₀.server
  answers : t.answers = s₀.answers
  presences : t.presences = ps
  bytesIn : t.bytesIn = bs
  blocksIn : t.blocksIn = rs

/-- The attach that began in `s₀` is over: it was answered with `c`, and the answers `ps`, `bs` and `rs` of the bus master
are left. -/
structure AttachAnswered (s₀ : State) (c : Code3) (ps : List Presence) (bs : List Byte) (rs : List Block) (t : State) :
    Prop where
  st : t.st = .idle
  busy : t.busy = false
  identity : t.identity = s₀.identity
  cfg : t.cfg = s₀.cfg
  answers : t.answers = s₀.answers ++ [(s₀.server, .err c)]
  presences : t.presences = ps
  bytesIn : t.bytesIn = bs
  blocksIn : t.blocksIn = rs

/-- The answers ready are those of the attempts `as`, and then `ps`, `bs` and `rs`. -/
abbrev AttemptsAt (s₀ : State) (x : SeqState) (j : Nat) (as : List Attempt) (ps : List Presence) (bs : List Byte)
    (rs : List Block) : State → Prop :=
  AttachAt s₀ x j (as.map (·.p) ++ ps) (as.flatMap Attempt.bytesAsked ++ bs) (as.flatMap Attempt.blocksAsked ++ rs)

theorem State.turn_of_nil (h : s.turns = []) : s.turn = .seq := by
  simp [State.turn, h]

theorem step_request {x : SeqState} {c : Code3} {i : Instr} (hnil : s.turns = []) (hst : s.st = x)
    (hc : requestCode x = some c) (hi : decodeBr c = .ok i) : step s = exec i s := by
  have hfetch : fetch s = some (.br, [c.setWidth 8]) := by rw [fetch_seq (State.turn_of_nil hnil), hst, hc]; rfl
  rw [step_of_fetch (rest := []) hfetch (by rw [decode_br, hi]; rfl), advance_eq (by simp [State.turn_of_nil hnil]),
    State.endTurn_of_nil hnil]

theorem State.retry_sub_one (h : s.retry.toNat = j + 1) : (s.retry - 1#3).toNat = j := by
  rw [toNat_retry_sub_one (by omega), h, Nat.add_sub_cancel]

namespace AttachAt

/-! ### One rule per sequencer step (R111 to R120) -/

theorem lock (h : AttachAt s₀ .lock j ps bs rs s) (hfree : s.otherOwns = false) :
    s.Attains 1 1 [] (AttachAt s₀ .check j ps bs rs) :=
  .of_step ((step_request h.turns h.st rfl rfl).trans (execLock_granted h.st h.stalled hfree)) (by simp) (by simp)
    { h with st := rfl }

theorem check_left (h : AttachAt s₀ .check (j + 1) ps bs rs s) :
    s.Attains 1 0 [] (AttachAt s₀ .reset (j + 1) ps bs rs) := by
  have hleft : s.retry ≠ 0#3 := fun he => by have := h.retry; simp [he] at this
  exact .of_step (step_check_left (State.turn_of_nil h.turns) h.st hleft) le_rfl (by simp)
    { h with st := rfl, turns := by simp [h.turns] }

theorem check_empty (h : AttachAt s₀ .check 0 ps bs rs s) :
    s.Attains 1 0 [4#3] fun t => AttachAt s₀ .exit 0 ps bs rs t ∧ t.res = 4#3 := by
  have hempty : s.retry = 0#3 := BitVec.eq_of_toNat_eq h.retry
  exact .of_step (step_check_empty (State.turn_of_nil h.turns) h.st hempty) le_rfl rfl
    ⟨{ h with st := rfl, turns := by simp [h.turns] }, rfl⟩

theorem reset_present (h : AttachAt s₀ .reset j (.present :: ps) bs rs s) :
    s.Attains 1 1 [] (AttachAt s₀ .write j ps bs rs) :=
  .of_step ((step_request h.turns h.st rfl rfl).trans (execReset_present h.st h.stalled h.presences)) (by simp)
    (by simp) { h with st := rfl, presences := rfl }

theorem reset_absent (h : AttachAt s₀ .reset (j + 1) (.absent :: ps) bs rs s) :
    s.Attains 1 1 [1#3] (AttachAt s₀ .check j ps bs rs) :=
  .of_step ((step_request h.turns h.st rfl rfl).trans (execReset_absent h.st h.stalled h.presences)) (by simp) rfl
    { h with st := rfl, presences := rfl, retry := State.retry_sub_one h.retry }

theorem write (h : AttachAt s₀ .write j ps bs rs s) : s.Attains 1 1 [] (AttachAt s₀ .cmdCrc j ps bs rs) :=
  .of_step ((step_request h.turns h.st rfl rfl).trans (execWrite_answered h.st h.stalled)) (by simp) (by simp)
    { h with st := rfl }

theorem echo_ok {b : Byte} (h : AttachAt s₀ .cmdCrc j ps (b :: bs) rs s) (hok : b = 0x8D#8) :
    s.Attains 1 1 [] (AttachAt s₀ .block j ps bs rs) :=
  .of_step ((step_request h.turns h.st rfl rfl).trans (execReadByte_echoOk h.st h.stalled h.bytesIn hok)) (by simp)
    (by simp) { h with st := rfl, bytesIn := rfl }

theorem echo_bad {b : Byte} (h : AttachAt s₀ .cmdCrc (j + 1) ps (b :: bs) rs s) (hbad : b ≠ 0x8D#8) :
    s.Attains 1 1 [2#3] (AttachAt s₀ .check j ps bs rs) :=
  .of_step ((step_request h.turns h.st rfl rfl).trans (execReadByte_echoBad h.st h.stalled h.bytesIn hbad)) (by simp)
    rfl { h with st := rfl, bytesIn := rfl, retry := State.retry_sub_one h.retry }

theorem block {r : Block} (h : AttachAt s₀ .block j ps bs (r :: rs) s) :
    s.Attains 1 1 [] fun t => AttachAt s₀ .dataCrc j ps bs rs t ∧ t.record = Memory.ofBlock r :=
  .of_step ((step_request h.turns h.st rfl rfl).trans (execReadBlock_answered h.st h.stalled h.blocksIn)) (by simp)
    (by simp) ⟨{ h with st := rfl, blocksIn := rfl }, rfl⟩

theorem payload_ok {b : Byte} (h : AttachAt s₀ .dataCrc j ps (b :: bs) rs s) (hok : b = crc8 s.record.bytes) :
    s.Attains 1 1 [] fun t => AttachAt s₀ .parse j ps bs rs t ∧ t.record = s.record :=
  .of_step ((step_request h.turns h.st rfl rfl).trans (execReadByte_payloadOk h.st h.stalled h.bytesIn hok)) (by simp)
    (by simp) ⟨{ h with st := rfl, bytesIn := rfl }, rfl⟩

theorem payload_bad {b : Byte} (h : AttachAt s₀ .dataCrc (j + 1) ps (b :: bs) rs s) (hbad : b ≠ crc8 s.record.bytes) :
    s.Attains 1 1 [3#3] (AttachAt s₀ .check j ps bs rs) :=
  .of_step ((step_request h.turns h.st rfl rfl).trans (execReadByte_payloadBad h.st h.stalled h.bytesIn hbad))
    (by simp) rfl { h with st := rfl, bytesIn := rfl, retry := State.retry_sub_one h.retry }

theorem parse_bad (h : AttachAt s₀ .parse j ps bs rs s) (hmagic : magic s.record ≠ 0xE54C21ED#32) :
    s.Attains 1 0 [5#3] fun t => AttachAt s₀ .exit j ps bs rs t ∧ t.res = 5#3 :=
  .of_step (step_parse_bad (State.turn_of_nil h.turns) h.st hmagic) le_rfl rfl
    ⟨{ h with st := rfl, turns := by simp [h.turns] }, rfl⟩

theorem parse_ok (h : AttachAt s₀ .parse j ps bs rs s) (hmagic : magic s.record = 0xE54C21ED#32) :
    s.Attains 1 0 [] fun t => AttachAt s₀ .store j ps bs rs t ∧ t.record = s.record :=
  .of_step (step_parse_ok (State.turn_of_nil h.turns) h.st hmagic) le_rfl (by simp)
    ⟨{ h with st := rfl, turns := by simp [h.turns] }, rfl⟩

theorem store (h : AttachAt s₀ .store j ps bs rs s) :
    s.Attains 1 0 [] fun t =>
      AttachAt { s₀ with identity := some (identifier s₀.cfg s.record) } .exit j ps bs rs t ∧ t.res = 0#3 :=
  .of_step (step_store (State.turn_of_nil h.turns) h.st) le_rfl (by simp [seqStore_eq])
    ⟨{ h with st := rfl, turns := by simp [seqStore_eq, h.turns], identity := by simp [seqStore_eq, h.cfg] }, rfl⟩

theorem exit {c : Code3} (h : AttachAt s₀ .exit j ps bs rs s) (hres : s.res = c) :
    s.Attains 1 1 [] (AttachAnswered s₀ c ps bs rs) :=
  .of_step ((step_request h.turns h.st rfl rfl).trans (execUnlock_answered h.st h.stalled)) (by simp) (by simp)
    { h with st := rfl, busy := rfl, answers := by simp [h.answers, h.server, hres] }

/-! ### One attempt (R122) -/

/-- The attempt of an attach up to the record, when presence and command echo are right. -/
theorem to_payload {r : Block} (h : AttachAt s₀ .check (j + 1) (.present :: ps) (0x8D#8 :: bs) (r :: rs) s) :
    s.Attains 5 4 [] fun t => AttachAt s₀ .dataCrc (j + 1) ps bs rs t ∧ t.record = Memory.ofBlock r :=
  h.check_left.bind fun _ h => h.reset_present.bind fun _ h => h.write.bind fun _ h => (h.echo_ok rfl).bind fun _ h =>
    h.block

end AttachAt

/-- What a clean attempt asks for. -/
theorem Attempt.clean_cases (ha : a.clean = true) :
    a.p = .present ∧ a.c1 = 0x8D#8 ∧ a.c2 = crc8 a.r.toList ∧ a.bytesAsked = [a.c1, a.c2] ∧ a.blocksAsked = [a.r] := by
  obtain ⟨⟨hp, hc1⟩, hc2⟩ : (a.p = .present ∧ a.c1 = 0x8D#8) ∧ a.c2 = crc8 a.r.toList := by
    simpa [Attempt.clean] using ha
  exact ⟨hp, hc1, hc2, by simp [Attempt.bytesAsked, hp, hc1], by simp [Attempt.blocksAsked, hp, hc1]⟩

/-- The three ways an attempt fails, each with its fault and what it asks for (R187). -/
theorem Attempt.fault_cases (ha : a.clean = false) :
    (a.p = .absent ∧ a.fault = .busResetFailure ∧ a.bytesAsked = [] ∧ a.blocksAsked = []) ∨
      (a.p = .present ∧ a.c1 ≠ 0x8D#8 ∧ a.fault = .commandCrcMismatch ∧ a.bytesAsked = [a.c1] ∧ a.blocksAsked = []) ∨
      (a.p = .present ∧ a.c1 = 0x8D#8 ∧ a.c2 ≠ crc8 a.r.toList ∧ a.fault = .payloadCrcMismatch ∧
        a.bytesAsked = [a.c1, a.c2] ∧ a.blocksAsked = [a.r]) := by
  cases hp : a.p with
  | absent => simp [Attempt.fault, Attempt.bytesAsked, Attempt.blocksAsked, hp]
  | present =>
    by_cases hc1 : a.c1 = 0x8D#8
    · have hc2 : a.c2 ≠ crc8 a.r.toList := by simpa [Attempt.clean, hp, hc1] using ha
      simp [Attempt.fault, Attempt.bytesAsked, Attempt.blocksAsked, hp, hc1, hc2]
    · simp [Attempt.fault, Attempt.bytesAsked, Attempt.blocksAsked, hp, hc1]

namespace AttachAt

/-- A failed attempt costs one retry and emits its fault. -/
theorem attempt_fails (ha : a.clean = false)
    (h : AttachAt s₀ .check (j + 1) (a.p :: ps) (a.bytesAsked ++ bs) (a.blocksAsked ++ rs) s) :
    s.Attains 6 5 [a.fault.code] (AttachAt s₀ .check j ps bs rs) := by
  rcases Attempt.fault_cases ha with
    ⟨hp, hfault, hbytes, hblocks⟩ | ⟨hp, hc1, hfault, hbytes, hblocks⟩ | ⟨hp, hc1, hc2, hfault, hbytes, hblocks⟩
  all_goals rw [hp, hbytes, hblocks] at h; rw [hfault]
  · exact (h.check_left.bind fun _ h => h.reset_absent).mono (by decide) (by decide)
  · exact (h.check_left.bind fun _ h => h.reset_present.bind fun _ h => h.write.bind fun _ h => h.echo_bad hc1).mono
      (by decide) (by decide)
  · rw [hc1] at h
    refine h.to_payload.bind fun t ⟨ht, hrecord⟩ => ht.payload_bad ?_
    rwa [hrecord, Memory.bytes_ofBlock]

/-- A clean attempt leads to S_PARSE with its record. -/
theorem attempt_clean (ha : a.clean = true)
    (h : AttachAt s₀ .check (j + 1) (a.p :: ps) (a.bytesAsked ++ bs) (a.blocksAsked ++ rs) s) :
    s.Attains 6 5 [] fun t => AttachAt s₀ .parse (j + 1) ps bs rs t ∧ t.record = Memory.ofBlock a.r := by
  obtain ⟨hp, hc1, hc2, hbytes, hblocks⟩ := Attempt.clean_cases ha
  rw [hp, hbytes, hblocks, hc1] at h
  refine h.to_payload.bind fun t ⟨ht, hrecord⟩ => hrecord ▸ ht.payload_ok ?_
  rwa [hrecord, Memory.bytes_ofBlock]

/-- Failed attempts, one after the other. -/
theorem attempts_fail {failed : List Attempt} (hfail : ∀ a ∈ failed, a.clean = false)
    (h : AttemptsAt s₀ .check (failed.length + j) failed ps bs rs s) :
    s.Attains (6 * failed.length) (5 * failed.length) (failed.map fun a => a.fault.code)
      (AttachAt s₀ .check j ps bs rs) := by
  induction failed generalizing s with
  | nil => exact .refl (by simpa [AttemptsAt] using h)
  | cons a failed ih =>
    obtain ⟨ha, hfail⟩ := List.forall_mem_cons.1 hfail
    simp only [AttemptsAt, List.length_cons, Nat.add_right_comm, List.map_cons, List.flatMap_cons, List.append_assoc,
      List.cons_append] at h
    refine ((h.attempt_fails ha).bind fun _ => ih hfail).mono ?_ ?_ <;> rw [List.length_cons] <;> omega

end AttachAt

/-! ### A whole attach (R125) -/

section Attach

variable {as failed later : List Attempt} (h : AttemptsAt s₀ .lock 5 as ps bs rs s) (hfree : s.otherOwns = false)
  (hlen : as.length = 5)
include h hfree hlen

/-- With no clean attempt the budget is exhausted. -/
theorem AttachAt.exhausted (hfail : ∀ a ∈ as, a.clean = false) :
    s.Attains 34 27 ((as.map fun a => a.fault.code) ++ [4#3]) (AttachAnswered s₀ 4#3 ps bs rs) := by
  rw [← hlen] at h
  have hrun := (h.lock hfree).bind fun _ h => (AttachAt.attempts_fail hfail (j := 0) h).bind fun _ h =>
    h.check_empty.bind fun _ ⟨h, hres⟩ => h.exit hres
  exact hrun.mono (by omega) (by omega)

/-- The first clean attempt leads to S_PARSE, and the answers of later attempts stay. -/
theorem AttachAt.first_clean (has : as = failed ++ a :: later) (hfail : ∀ a ∈ failed, a.clean = false)
    (ha : a.clean = true) :
    s.Attains 31 26 (failed.map fun a => a.fault.code) fun t =>
      AttemptsAt s₀ .parse (later.length + 1) later ps bs rs t ∧ t.record = Memory.ofBlock a.r := by
  have hbudget : 5 = failed.length + (later.length + 1) := by rw [← hlen, has]; simp
  rw [hbudget] at h
  simp only [AttemptsAt, has, List.map_append, List.map_cons, List.flatMap_append, List.flatMap_cons,
    List.append_assoc, List.cons_append] at h
  have hrun := (h.lock hfree).bind fun _ h => (h.attempts_fail hfail).bind fun _ h => h.attempt_clean ha
  simpa only [List.nil_append, List.append_nil] using hrun.mono (n' := 31) (k' := 26) (by omega) (by omega)

theorem AttachAt.wrong_magic (has : as = failed ++ a :: later) (hfail : ∀ a ∈ failed, a.clean = false)
    (ha : a.clean = true) (hmagic : magic (Memory.ofBlock a.r) ≠ 0xE54C21ED#32) :
    s.Attains 34 27 ((failed.map fun a => a.fault.code) ++ [5#3])
      (AttachAnswered s₀ 5#3 (later.map (·.p) ++ ps) (later.flatMap Attempt.bytesAsked ++ bs)
        (later.flatMap Attempt.blocksAsked ++ rs)) := by
  have hparse := h.first_clean hfree hlen has hfail ha
  have hrun := hparse.bind fun _ ⟨h, hrecord⟩ => (h.parse_bad (hrecord ▸ hmagic)).bind fun _ ⟨h, hres⟩ => h.exit hres
  exact hrun.mono (by decide) (by decide)

theorem AttachAt.stored (has : as = failed ++ a :: later) (hfail : ∀ a ∈ failed, a.clean = false)
    (ha : a.clean = true) (hmagic : magic (Memory.ofBlock a.r) = 0xE54C21ED#32) :
    s.Attains 34 27 (failed.map fun a => a.fault.code)
      (AttachAnswered { s₀ with identity := some (identifier s₀.cfg (Memory.ofBlock a.r)) } 0#3
        (later.map (·.p) ++ ps) (later.flatMap Attempt.bytesAsked ++ bs)
        (later.flatMap Attempt.blocksAsked ++ rs)) := by
  have hparse := h.first_clean hfree hlen has hfail ha
  have hrun := hparse.bind fun _ ⟨h, hrecord⟩ => (h.parse_ok (hrecord ▸ hmagic)).bind fun _ ⟨h, hstored⟩ =>
    (hrecord ▸ hstored ▸ h.store).bind fun _ ⟨h, hres⟩ => h.exit hres
  simpa only [List.nil_append, List.append_nil] using hrun

end Attach

/-! ### The first clean attempt of a list -/

theorem find?_clean_eq_none {as : List Attempt} (h : as.find? Attempt.clean = none) : ∀ a ∈ as, a.clean = false := by
  simpa using h

theorem find?_clean_eq_some {as : List Attempt} (h : as.find? Attempt.clean = some a) :
    ∃ failed later, as = failed ++ a :: later ∧ (∀ x ∈ failed, x.clean = false) ∧ a.clean = true := by
  obtain ⟨ha, failed, later, has, hfail⟩ := List.find?_eq_some_iff_append.1 h
  exact ⟨failed, later, has, by simpa using hfail, ha⟩

theorem takeWhile_not_clean {failed later : List Attempt} (hfail : ∀ x ∈ failed, x.clean = false) (ha : a.clean = true) :
    (failed ++ a :: later).takeWhile (fun a => !a.clean) = failed := by
  rw [List.takeWhile_append_of_pos (by simpa using hfail)]
  simp [ha]

theorem dropWhile_not_clean {failed later : List Attempt} (hfail : ∀ x ∈ failed, x.clean = false) (ha : a.clean = true) :
    (failed ++ a :: later).dropWhile (fun a => !a.clean) = a :: later := by
  rw [List.dropWhile_append_of_pos (by simpa using hfail)]
  simp [ha]

/-! ### Answers read as attempts -/

/-- The first answers of the bus master are those of some attempt, which asks for two bytes and one block at most. -/
theorem exists_attempt (p : Presence) (b b' : Byte) (bs : List Byte) (r : Block) (rs : List Block) :
    ∃ (a : Attempt) (bs' : List Byte) (rs' : List Block), a.p = p ∧ b :: b' :: bs = a.bytesAsked ++ bs' ∧
      r :: rs = a.blocksAsked ++ rs' ∧ bs.length ≤ bs'.length ∧ rs.length ≤ rs'.length := by
  refine ⟨⟨p, b, r, b'⟩, ?_⟩
  by_cases hp : p = .absent
  · exact ⟨b :: b' :: bs, r :: rs, rfl, by simp [Attempt.bytesAsked, hp], by simp [Attempt.blocksAsked, hp],
      by simp [Nat.le_add_right_of_le], by simp⟩
  by_cases hb : b = 0x8D#8
  · exact ⟨bs, rs, rfl, by simp [Attempt.bytesAsked, hp, hb], by simp [Attempt.blocksAsked, hp, hb], le_rfl, le_rfl⟩
  · exact ⟨b' :: bs, r :: rs, rfl, by simp [Attempt.bytesAsked, hp, hb], by simp [Attempt.blocksAsked, hp, hb], by simp,
      by simp⟩

/-- With enough answers ready the bus master has the answers of `m` attempts ready. -/
theorem exists_attempts (m : Nat) (hp : m ≤ ps.length) (hb : 2 * m ≤ bs.length) (hr : m ≤ rs.length) :
    ∃ (as : List Attempt) (ps' : List Presence) (bs' : List Byte) (rs' : List Block), as.length = m ∧
      ps = as.map (·.p) ++ ps' ∧ bs = as.flatMap Attempt.bytesAsked ++ bs' ∧
      rs = as.flatMap Attempt.blocksAsked ++ rs' := by
  induction m generalizing ps bs rs with
  | zero => exact ⟨[], ps, bs, rs, rfl, rfl, rfl, rfl⟩
  | succ m ih =>
    obtain ⟨p, ps, rfl⟩ := List.exists_cons_of_length_pos (by omega : 0 < ps.length)
    obtain ⟨b, bs, rfl⟩ := List.exists_cons_of_length_pos (by omega : 0 < bs.length)
    obtain ⟨b', bs, rfl⟩ := List.exists_cons_of_length_pos (by simp at hb; omega : 0 < bs.length)
    obtain ⟨r, rs, rfl⟩ := List.exists_cons_of_length_pos (by omega : 0 < rs.length)
    obtain ⟨a, bs', rs', hap, hbytes, hblocks, hbs, hrs⟩ := exists_attempt p b b' bs r rs
    simp only [List.length_cons] at hp hb hr
    obtain ⟨as, ps₁, bs₁, rs₁, hlen, rfl, rfl, rfl⟩ :=
      ih (ps := ps) (bs := bs') (rs := rs') (by omega) (by omega) (by omega)
    exact ⟨a :: as, ps₁, bs₁, rs₁, by simp [hlen], by simp [hap], by simp [hbytes], by simp [hblocks]⟩

end Sys2Proof.Machine

open Sys2Proof.Machine

/-- Settles O57: the three ends of an attach, by the first clean attempt and its magic. -/
theorem attachFunctionalSummary : Obligations.AttachFunctionalSummary := by
  intro s as ps bs rs hbusy hturns hstalled hfree hlen hp hb hr
  refine ⟨s.acceptAttach, execAttach_idle hbusy, ?_⟩
  have h : AttemptsAt s.acceptAttach .lock 5 as ps bs rs s.acceptAttach :=
    ⟨rfl, hturns, hstalled, rfl, rfl, rfl, rfl, rfl, hp, hb, hr⟩
  cases hfind : as.find? Attempt.clean with
  | none =>
    have hfail := find?_clean_eq_none hfind
    obtain ⟨n, hn, t, hrun, -, hev, ht⟩ := h.exhausted hfree hlen hfail
    have hdrop : as.dropWhile (fun a => !a.clean) = [] := by simpa using hfail
    refine ⟨n, hn, t, hrun, ht.st, ht.busy, ht.cfg, ?_⟩
    simp [hdrop, hev, ht.presences, ht.bytesIn, ht.blocksIn, ht.answers, ht.identity]
  | some a =>
    obtain ⟨failed, later, has, hfail, ha⟩ := find?_clean_eq_some hfind
    rw [has, takeWhile_not_clean hfail ha, dropWhile_not_clean hfail ha]
    by_cases hmagic : magic (Memory.ofBlock a.r) = 0xE54C21ED#32
    · obtain ⟨n, hn, t, hrun, -, hev, ht⟩ := h.stored hfree hlen has hfail ha hmagic
      exact ⟨n, hn, t, hrun, ht.st, ht.busy, ht.cfg, ht.presences, ht.bytesIn, ht.blocksIn,
        by simp [hmagic, hev, ht.answers, ht.identity]⟩
    · obtain ⟨n, hn, t, hrun, -, hev, ht⟩ := h.wrong_magic hfree hlen has hfail ha hmagic
      exact ⟨n, hn, t, hrun, ht.st, ht.busy, ht.cfg, ht.presences, ht.bytesIn, ht.blocksIn,
        by simp [hmagic, hev, ht.answers, ht.identity]⟩

/-- Settles O56: the answers ready are those of five attempts. -/
theorem attachTerminates : Obligations.AttachTerminates := by
  intro s hst hretry hturns hstalled hfree hp hb hr
  obtain ⟨as, ps, bs, rs, hlen, hp, hb, hr⟩ := exists_attempts 5 hp hb hr
  have h : AttemptsAt s .lock 5 as ps bs rs s :=
    ⟨hst, hturns, hstalled, by rw [hretry]; rfl, rfl, rfl, rfl, rfl, hp, hb, hr⟩
  cases hfind : as.find? Attempt.clean with
  | none =>
    obtain ⟨n, hn, t, hrun, hreq, hev, ht⟩ := h.exhausted hfree hlen (find?_clean_eq_none hfind)
    exact ⟨n, hn, t, hrun, ht.st, ht.busy, hreq, by simp [hev, hlen], 4#3, rfl, ht.answers⟩
  | some a =>
    obtain ⟨failed, later, has, hfail, ha⟩ := find?_clean_eq_some hfind
    have hle : failed.length ≤ 5 := by rw [← hlen, has]; simp
    by_cases hmagic : magic (Memory.ofBlock a.r) = 0xE54C21ED#32
    · obtain ⟨n, hn, t, hrun, hreq, hev, ht⟩ := h.stored hfree hlen has hfail ha hmagic
      exact ⟨n, hn, t, hrun, ht.st, ht.busy, hreq, by simp [hev]; omega, 0#3, rfl, ht.answers⟩
    · obtain ⟨n, hn, t, hrun, hreq, hev, ht⟩ := h.wrong_magic hfree hlen has hfail ha hmagic
      exact ⟨n, hn, t, hrun, ht.st, ht.busy, hreq, by simp [hev]; omega, 5#3, rfl, ht.answers⟩
end

section
/-! PROOFS. The CRC-8 function (spec/42_crc8_validator.md R140 to R142): its bit-serial form, its linearity, and the
properties R141 derives. -/

namespace Sys2Proof.Machine

/-! ### The bit-serial form (R140) -/

theorem crcShifts_succ_last (n : Nat) (c : Byte) : crcShifts (n + 1) c = crcShift (crcShifts n c) := by
  induction n generalizing c with
  | zero => rfl
  | succ n ih => exact ih (crcShift c)

/-- The serial form enters one bit of `d` at a time: what it has not entered yet stands beside the register `r`. -/
theorem crcSerialBit_xor (r d : Byte) : crcSerialBit (r ^^^ d) (d.getLsbD 0) = crcShift r ^^^ d >>> 1 := by
  have hmix : ((r ^^^ d).getLsbD 0 ^^ d.getLsbD 0) = r.getLsbD 0 := by
    rw [BitVec.getLsbD_xor, Bool.xor_assoc, Bool.xor_self, Bool.xor_false]
  rw [crcSerialBit, hmix, BitVec.ushiftRight_xor_distrib, crcShift]
  split
  · ac_rfl
  · rfl

/-- After `n` bits of `b` the serial register is the parallel one with the remaining bits of `b` taken out. -/
theorem crcSerialBit_range (c b : Byte) (n : Nat) :
    (List.range n).foldl (fun c i => crcSerialBit c (b.getLsbD i)) c = crcShifts n (c ^^^ b) ^^^ b >>> n := by
  induction n with
  | zero => simp [crcShifts]
  | succ n ih =>
    have hbit : b.getLsbD n = (b >>> n).getLsbD 0 := by simp
    rw [List.range_succ, List.foldl_append, ih, List.foldl_cons, List.foldl_nil, hbit, crcSerialBit_xor,
      crcShifts_succ_last, BitVec.shiftRight_add]

theorem crcByte_eq_serial (c b : Byte) :
    crcByte c b = (List.range 8).foldl (fun c i => crcSerialBit c (b.getLsbD i)) c := by
  rw [crcSerialBit_range, BitVec.ushiftRight_eq_zero le_rfl, BitVec.xor_zero, crcByte]

/-! ### Linearity (R141 (b)) -/

theorem crcByte_xor (c d x y : Byte) : crcByte (c ^^^ d) (x ^^^ y) = crcByte c x ^^^ crcByte d y := by
  simp only [crcByte, ← crcShifts_xor]
  congr 1
  ac_rfl

theorem foldl_crcByte_xor {xs ys : List Byte} (h : xs.length = ys.length) (c d : Byte) :
    (List.zipWith (· ^^^ ·) xs ys).foldl crcByte (c ^^^ d) = xs.foldl crcByte c ^^^ ys.foldl crcByte d := by
  induction xs generalizing ys c d with
  | nil => simp [List.length_eq_zero_iff.1 h.symm]
  | cons x xs ih =>
    cases ys with
    | nil => cases h
    | cons y ys => simp only [List.zipWith_cons_cons, List.foldl_cons, crcByte_xor, ih (Nat.succ.inj h)]

/-! ### Zeros, the appended CRC, and every byte as a CRC (R141 (c), (d), (e)) -/

@[simp] theorem crc8_zero_cons (bs : List Byte) : crc8 (0 :: bs) = crc8 bs := rfl

@[simp] theorem crcByte_self (c : Byte) : crcByte c c = 0 := by
  rw [crcByte, BitVec.xor_self]
  rfl

/-- The kernel of the shift is 0: had a 1 been shifted out, bit 7 of the polynomial would stand in the result. -/
theorem crcShift_eq_zero {c : Byte} (h : crcShift c = 0) : c = 0 := by
  rw [crcShift] at h
  split at h
  · have hbit := congrArg (BitVec.getLsbD · 7) (BitVec.xor_eq_zero_iff.1 h)
    simp [crcPoly] at hbit
  next hbit =>
    refine BitVec.eq_of_getLsbD_eq fun i _ => ?_
    cases i with
    | zero => simpa using hbit
    | succ i => simpa [Nat.add_comm] using congrArg (BitVec.getLsbD · i) h

theorem crcShift_surjective : Function.Surjective crcShift :=
  Finite.surjective_of_injective fun a b h =>
    BitVec.xor_eq_zero_iff.1 (crcShift_eq_zero (by simp [crcShift_xor, h]))

theorem crcShifts_surjective (n : Nat) : Function.Surjective (crcShifts n) := by
  induction n with
  | zero => exact Function.surjective_id
  | succ n ih => exact ih.comp crcShift_surjective

theorem crc8_singleton (b : Byte) : crc8 [b] = crcShifts 8 b :=
  congrArg (crcShifts 8) BitVec.zero_xor

end Sys2Proof.Machine

open Sys2Proof.Machine

/-- Settles O31: the two forms enter each byte alike. -/
theorem crcEqualsBitSerialForm : Obligations.CrcEqualsBitSerialForm := by
  intro bytes
  simp only [crcSerial, ← crcByte_eq_serial]
  rfl

/-- Settles O32: the fold is linear from any two registers, and `CRC_INIT` is 0. -/
theorem crcLinear : Obligations.CrcLinear :=
  fun _ _ h => foldl_crcByte_xor h crcInit crcInit

/-- Settles O33: a leading zero leaves `CRC_INIT` alone, a CRC cancels itself, and one byte already gives every CRC. -/
theorem crcZeroAndOntoProperties : Obligations.CrcZeroAndOntoProperties := by
  refine ⟨fun n bytes => ?zeros, fun bytes => ?appended, fun b => ?onto⟩
  case zeros =>
    induction n with
    | zero => rfl
    | succ n ih => rw [List.replicate_succ, List.cons_append, crc8_zero_cons, ih]
  case appended => rw [crc8_concat, crcByte_self]
  case onto =>
    obtain ⟨c, hc⟩ := crcShifts_surjective 8 b
    exact ⟨[c], (crc8_singleton c).trans hc⟩

/-- Settles O34: the reference is the one the model's laws compute, the registers by evaluation. -/
theorem echoReferenceIsConstant : Obligations.EchoReferenceIsConstant :=
  ⟨fun _ => State.echoCrc_eq, by decide +kernel⟩
end

section
/-! PROOFS. The record parser (spec/43_record_parser.md R150 to R155): four bytes as one word, the offsets read,
and a record that holds given bytes there. -/

namespace Sys2Proof.Machine

/-! ### Four bytes as one word (R151, R154) -/

/-- A word of four bytes has one value for each of its bytes. -/
theorem append_bytes_inj {a b c d a' b' c' d' : Byte} :
    (d ++ c ++ b ++ a : Word32) = d' ++ c' ++ b' ++ a' ↔ a = a' ∧ b = b' ∧ c = c' ∧ d = d' := by
  have ha := a.isLt; have hb := b.isLt; have hc := c.isLt
  have ha' := a'.isLt; have hb' := b'.isLt; have hc' := c'.isLt
  simp only [← BitVec.toNat_inj, toNat_append_bytes]
  omega

theorem exists_append_bytes (v : Word32) : ∃ a b c d : Byte, v = d ++ c ++ b ++ a := by
  refine ⟨v.extractLsb' 0 8, v.extractLsb' 8 8, v.extractLsb' 16 8, v.extractLsb' 24 8, BitVec.eq_of_toNat_eq ?_⟩
  have hv := v.isLt
  simp only [toNat_append_bytes, BitVec.extractLsb'_toNat, Nat.shiftRight_eq_div_pow]
  omega

theorem magic_eq_append_iff {m : Memory} {a b c d : Byte} :
    magic m = d ++ c ++ b ++ a ↔ m.read 0 = a ∧ m.read 1 = b ∧ m.read 2 = c ∧ m.read 3 = d :=
  append_bytes_inj

theorem identifier_eq_append_iff {cfg : Config} {m : Memory} {a b c d : Byte} :
    identifier cfg m = d ++ c ++ b ++ a ↔
      m.read cfg.offIdLow = a ∧ m.read cfg.offIdHigh = b ∧ m.read (cfg.offIdHigh + 1) = c ∧
        m.read (cfg.offIdHigh + 2) = d := by
  rw [identifier_eq_append]
  exact append_bytes_inj

theorem expectedMagic_eq_append : (0xE54C21ED#32 : Word32) = 0xE5#8 ++ 0x4C#8 ++ 0x21#8 ++ 0xED#8 := by decide

/-! ### The offsets the parser reads (R150, R155) -/

theorem parserOffsets_lt (c : Config) : ∀ a ∈ parserOffsets c, a < 128 := by
  obtain ⟨⟨-, hlow⟩, ⟨-, hhigh⟩, -⟩ := c.ok
  intro a ha
  simp only [parserOffsets, List.mem_cons, List.not_mem_nil, or_false] at ha
  omega

/-- The magic ends at offset 3, both fields start at 4 or later, and the low byte is outside the high field (R6). -/
theorem parserOffsets_nodup (c : Config) : (parserOffsets c).Nodup := by
  obtain ⟨⟨hlow, -⟩, ⟨hhigh, -⟩, hdisjoint, -⟩ := c.ok
  simp only [parserOffsets, List.nodup_cons, List.mem_cons, List.not_mem_nil, List.nodup_nil, not_or,
    not_false_eq_true, and_true]
  omega

theorem magic_congr {c : Config} {m m' : Memory} (h : ∀ a ∈ parserOffsets c, m.read a = m'.read a) :
    magic m = magic m' := by
  simp only [parserOffsets, List.forall_mem_cons] at h
  obtain ⟨h0, h1, h2, h3, -⟩ := h
  rw [magic, magic, h0, h1, h2, h3]

theorem identifier_congr {c : Config} {m m' : Memory} (h : ∀ a ∈ parserOffsets c, m.read a = m'.read a) :
    identifier c m = identifier c m' := by
  simp only [parserOffsets, List.forall_mem_cons] at h
  obtain ⟨-, -, -, -, hlow, hhigh, hhigh1, hhigh2, -⟩ := h
  rw [identifier, identifier, idLow, idLow, idHigh, idHigh, hlow, hhigh, hhigh1, hhigh2]

/-! ### A record with given bytes at those offsets (R154) -/

/-- The record with the bytes `bs` at the parser's offsets, in their order, and 0 in the padding. -/
def recordOfFields (c : Config) (bs : List Byte) : Block :=
  Vector.ofFn fun i => bs.getD ((parserOffsets c).idxOf i.val) 0

/-- No two fields share an offset, so each byte is read back. -/
theorem read_recordOfFields (c : Config) (bs : List Byte) (k : Nat) (hk : k < 8) :
    (Memory.ofBlock (recordOfFields c bs)).read ((parserOffsets c)[k]'hk) = bs.getD k 0 := by
  rw [Memory.read_ofBlock _ _ (parserOffsets_lt c _ (List.getElem_mem hk)), recordOfFields, Vector.getElem_ofFn,
    (parserOffsets_nodup c).idxOf_getElem k hk]

theorem exists_record_of_fields (c : Config) (m₀ m₁ m₂ m₃ a₀ a₁ a₂ a₃ : Byte) :
    ∃ r : Block, identifier c (Memory.ofBlock r) = a₃ ++ a₂ ++ a₁ ++ a₀ ∧
      magic (Memory.ofBlock r) = m₃ ++ m₂ ++ m₁ ++ m₀ := by
  have hread := read_recordOfFields c [m₀, m₁, m₂, m₃, a₀, a₁, a₂, a₃]
  exact ⟨_,
    identifier_eq_append_iff.2 ⟨hread 4 (by decide), hread 5 (by decide), hread 6 (by decide), hread 7 (by decide)⟩,
    magic_eq_append_iff.2 ⟨hread 0 (by decide), hread 1 (by decide), hread 2 (by decide), hread 3 (by decide)⟩⟩

end Sys2Proof.Machine

open Sys2Proof.Machine

/-- Settles O35: the expected magic is the word of those four bytes. -/
theorem magicIsFourBytes : Obligations.MagicIsFourBytes := by
  intro m
  rw [expectedMagic_eq_append]
  exact magic_eq_append_iff

/-- Settles O36: an identifier is split into its bytes, and some record holds them at the parser's offsets. -/
theorem identifierAssembled : Obligations.IdentifierAssembled := by
  refine ⟨fun c m => identifier_eq_append c m, fun c v => ?_⟩
  obtain ⟨a₀, a₁, a₂, a₃, rfl⟩ := exists_append_bytes v
  rw [expectedMagic_eq_append]
  exact exists_record_of_fields c 0xED 0x21 0x4C 0xE5 a₀ a₁ a₂ a₃

/-- Settles O37: the configuration's constraints place the offsets, and the parser reads nothing else. -/
theorem paddingNotInterpreted : Obligations.PaddingNotInterpreted :=
  fun c => ⟨parserOffsets_lt c, parserOffsets_nodup c, fun _ _ h => ⟨magic_congr h, identifier_congr h⟩⟩
end

section
/-! PROOFS. DETACH and the two queries (spec/44_detach_queries.md R160 to R163): what a query answers, and the one form that
the three commands' steps share. -/

namespace Sys2Proof.Machine

variable {s t : State}

/-! ### What CLASSIFICATION answers (R162) -/

theorem State.classification_stored {v : Word32} (hid : s.identity = some v) : s.classification = cls s.cfg v := by
  rw [State.classification, hid]

theorem State.classification_empty (hid : s.identity = none) : s.classification = 0 := by
  rw [State.classification, hid]

/-! ### The step of a command that completes at once (R163) -/

/-- The identity may be written, by DETACH alone, and the issuer gets one answer: every other field is that of `s`. -/
theorem exec_immediate_next {i : Instr} (hi : i = .detach ∨ i = .hasIdentity ∨ i = .classification)
    (h : exec i s = .next t) :
    ∃ (id : Option Word32) (a : Answer),
      (i ≠ .detach → id = s.identity) ∧
        t = { s with identity := id, answers := s.answers ++ [(s.issuer, a)] } := by
  obtain rfl | rfl | rfl := hi
  · exact ⟨none, _, (absurd rfl ·), execDetach_next.1 h⟩
  · exact ⟨s.identity, _, fun _ => rfl, execHasIdentity_next.1 h⟩
  · exact ⟨s.identity, _, fun _ => rfl, execClassification_next.1 h⟩

end Sys2Proof.Machine

open Sys2Proof.Machine

/-- Settles O12: the rule of DETACH. -/
theorem detachClearsIdentity : Obligations.DetachClearsIdentity :=
  fun _ => execDetach_next.2 rfl

/-- Settles O13: the rule of HAS_IDENTITY. -/
theorem hasIdentityAnswersIdValid : Obligations.HasIdentityAnswersIdValid :=
  fun _ => execHasIdentity_next.2 rfl

/-- Settles O14, with and without an identity. -/
theorem classificationAnswersCls : Obligations.ClassificationAnswersCls :=
  ⟨fun _ _ hid => execClassification_next.2 (by rw [State.classification_stored hid]),
    fun _ hid => execClassification_next.2 (by rw [State.classification_empty hid])⟩

/-- Settles O15: the form that the three steps share leaves every field of the frame as it was. -/
theorem queriesAndDetachFrame : Obligations.QueriesAndDetachFrame := by
  intro i s t hi h
  obtain ⟨id, a, hid, rfl⟩ := exec_immediate_next hi h
  simpa using hid
end

section
/-! PROOFS. The classification ROM (spec/45_classification_rom.md R170 to R176): what a lookup in a list of rows with
distinct keys gives, the eleven rows of a configuration, and that no step writes them. -/

namespace Sys2Proof.Machine

variable {s t : State}

/-! ### The lookup in a list of rows (R170, R174, R176) -/

/-- With distinct keys no earlier row hides the row `r`. -/
theorem lookupRow_of_mem {rows : List Row} {r : Row} (hkeys : (rows.map Prod.fst).Nodup) (hr : r ∈ rows) :
    lookupRow rows r.1 = r.2 := by
  induction rows with
  | nil => cases hr
  | cons row rows ih =>
    obtain ⟨hfirst, hrest⟩ := List.nodup_cons.1 hkeys
    obtain rfl | hr := List.mem_cons.1 hr
    · exact if_pos rfl
    · have hne : row.1 ≠ r.1 := fun he => hfirst (he ▸ List.mem_map_of_mem hr)
      exact (if_neg hne).trans (ih hrest hr)

theorem lookupRow_eq_zero {rows : List Row} {v : Word32} (h : ∀ r ∈ rows, r.1 ≠ v) : lookupRow rows v = 0 := by
  induction rows with
  | nil => rfl
  | cons row rows ih =>
    obtain ⟨hne, hrest⟩ := List.forall_mem_cons.1 h
    exact (if_neg hne).trans (ih hrest)

/-- At most one row matches, so a reordering finds the same one, or none. -/
theorem lookupRow_perm {rows rows' : List Row} (hperm : rows.Perm rows') (hkeys : (rows'.map Prod.fst).Nodup)
    (v : Word32) : lookupRow rows v = lookupRow rows' v := by
  by_cases hv : ∃ r ∈ rows', r.1 = v
  · obtain ⟨r, hr, rfl⟩ := hv
    have hkeys' : (rows.map Prod.fst).Nodup := (hperm.map Prod.fst).nodup_iff.2 hkeys
    rw [lookupRow_of_mem hkeys hr, lookupRow_of_mem hkeys' (hperm.mem_iff.2 hr)]
  · have hnone : ∀ r ∈ rows', r.1 ≠ v := fun r hr he => hv ⟨r, hr, he⟩
    rw [lookupRow_eq_zero hnone, lookupRow_eq_zero fun r hr => hnone r (hperm.mem_iff.1 hr)]

/-! ### The rows of a configuration (R171, R172) -/

theorem clsRows_length (c : Config) : (clsRows c).length = 11 := by
  obtain ⟨-, -, -, hrest, -⟩ := c.ok
  rw [clsRows, List.length_append, hrest]
  rfl

theorem clsRows_keys_nodup (c : Config) : ((clsRows c).map Prod.fst).Nodup := by
  obtain ⟨-, -, -, -, hkeys⟩ := c.ok
  exact hkeys

theorem cls_of_mem {c : Config} {r : Row} (hr : r ∈ clsRows c) : cls c r.1 = r.2 :=
  lookupRow_of_mem (clsRows_keys_nodup c) hr

theorem cls_of_mem_tableRest {c : Config} {r : Row} (hr : r ∈ c.tableRest) : cls c r.1 = r.2 :=
  cls_of_mem (List.mem_append_right _ hr)

theorem cls_known (c : Config) :
    cls c 0x10139465 = 0x00030000 ∧ cls c 0xAACAACAA = 0x00040000 ∧ cls c 0x10139462 = 0x00060000 := by
  have hrows : ∀ r ∈ knownRows, cls c r.1 = r.2 := fun _ hr => cls_of_mem (List.mem_append_left _ hr)
  simpa [knownRows] using hrows

theorem cls_unknown {c : Config} {v : Word32} (h1 : v ≠ 0x10139465) (h2 : v ≠ 0xAACAACAA) (h3 : v ≠ 0x10139462)
    (hrest : ∀ r ∈ c.tableRest, r.1 ≠ v) : cls c v = 0 := by
  have hknown : ∀ r ∈ knownRows, r.1 ≠ v := by simpa [knownRows] using And.intro h1.symm ⟨h2.symm, h3.symm⟩
  exact lookupRow_eq_zero (List.forall_mem_append.2 ⟨hknown, hrest⟩)

/-! ### No step writes them (R175) -/

/-- No case of a step has the configuration among the fields it updates. -/
theorem StepCase.keeps_cfg (h : StepCase s t) : t.cfg = s.cfg := by
  cases h with
  | _ => rfl

end Sys2Proof.Machine

open Sys2Proof.Machine

/-- Settles O38: each row gives its own value because the eleven keys are distinct. -/
theorem classificationTable : Obligations.ClassificationTable := by
  intro c
  obtain ⟨h12k, h17k, h28k⟩ := cls_known c
  exact ⟨clsRows_length c, h12k, h17k, h28k, fun _ hr => cls_of_mem_tableRest hr,
    fun _ h1 h2 h3 hrest => cls_unknown h1 h2 h3 hrest⟩

/-- Settles O39: the rows of a configuration have distinct keys. -/
theorem classificationOrderFree : Obligations.ClassificationOrderFree :=
  fun c _ hperm v => lookupRow_perm hperm (clsRows_keys_nodup c) v

/-- Settles O44: every case of a step keeps the configuration. -/
theorem configurationNeverWritten : Obligations.ConfigurationNeverWritten :=
  fun _ _ h => (step_cases h).keeps_cfg
end

section
/-! PROOFS. The five faults and the progress of the machine (spec/60_exceptions.md R180, R188 to R190): every step answers
a next state, and a diagnostic event is one `State.takeFault`, of the kind whose cause the state shows. -/

namespace Sys2Proof.Machine

variable {s t : State} {e : Err}

/-! ### A step always answers (R190, R225) -/

/-- A request answers wherever the sequencer issues it, whether it completes or waits; a host command answers always. -/
theorem exists_exec_next {i : Instr} (h : i.format = .hc ∨ s.st ∈ Instr.issuedIn i) : ∃ t, exec i s = .next t := by
  have hst (hbus : i.format ≠ .hc) : s.st ∈ Instr.issuedIn i := h.resolve_left hbus
  cases i with
  | attach | detach | hasIdentity | classification => exact ⟨_, rfl⟩
  | lock | write | unlock | readRecordFrame => exact ⟨_, if_pos (List.mem_singleton.1 (hst (by decide)))⟩
  | reset =>
    show ∃ t, execReset s = .next t
    rw [execReset, if_pos (List.mem_singleton.1 (hst (by decide)))]
    cases s.takePresence <;> exact ⟨_, rfl⟩
  | readByte =>
    show ∃ t, execReadByte s = .next t
    obtain hecho | hpayload := List.mem_pair.1 (hst (by decide))
    · rw [execReadByte, if_pos hecho]
      cases s.takeByte <;> exact ⟨_, rfl⟩
    · rw [execReadByte, if_neg (by simp [hpayload]), if_pos hpayload]
      cases s.takeByte <;> exact ⟨_, rfl⟩
  | readBlock =>
    show ∃ t, execReadBlock s = .next t
    rw [execReadBlock, if_pos (List.mem_singleton.1 (hst (by decide)))]
    cases s.takeBlock <;> exact ⟨_, rfl⟩

theorem exists_step_next_of_host {ctx : Nat} (hturn : s.turn = .host ctx) : ∃ t, step s = .next t := by
  rcases hcode : s.hostCode ctx with _ | op
  · exact ⟨_, step_host_none hturn hcode⟩
  · rw [step_host hturn hcode]
    exact exists_exec_next (.inl (format_decodeHc op))

/-- The port carries the request of the very state the sequencer stands in. -/
theorem exists_step_next_of_seq (hturn : s.turn = .seq) : ∃ t, step s = .next t := by
  have hissued (i : Instr) (hst : s.st ∈ Instr.issuedIn i) : ∃ t, exec i s.endTurn = .next t := exists_exec_next (.inr hst)
  rw [step_seq hturn]
  cases hst : s.st with
  | idle | check | parse | store => exact ⟨_, rfl⟩
  | lock => exact hissued .lock (by simp [hst, Instr.issuedIn])
  | reset => exact hissued .reset (by simp [hst, Instr.issuedIn])
  | write => exact hissued .write (by simp [hst, Instr.issuedIn])
  | cmdCrc | dataCrc => exact hissued .readByte (by simp [hst, Instr.issuedIn])
  | block => exact hissued .readBlock (by simp [hst, Instr.issuedIn])
  | exit => exact hissued .unlock (by simp [hst, Instr.issuedIn])

theorem exists_step_next_of_frame (hturn : s.turn = .frame) : ∃ t, step s = .next t := by
  rw [step_frame hturn]
  split
  case isTrue hst => exact exists_exec_next (i := .readRecordFrame) (.inr (List.mem_singleton.2 hst))
  case isFalse => exact ⟨_, rfl⟩

/-! ### A diagnostic event is a fault taken on its cause (R180, R121) -/

/-- Before the entry of the fault, the step has used up its turn and, for a request, recorded it and taken its answer. -/
theorem StepCase.takes_fault (h : StepCase s t) (hne : t.diagTrace ≠ s.diagTrace) :
    ∃ e ps bs reqs c, s.causes e ∧
      t = State.takeFault
        { s with turns := s.turns.tail, presences := ps, bytesIn := bs, busTrace := reqs, crcb := c } e := by
  cases h with
  | resetAbsent _ _ hst _ hp => exact ⟨.busResetFailure, _, _, _, _, ⟨hst, by rw [hp]; rfl⟩, rfl⟩
  | echoBad b _ _ hst _ hb hbad => exact ⟨.commandCrcMismatch, _, _, _, _, ⟨hst, b, by rw [hb]; rfl, hbad⟩, rfl⟩
  | payloadBad b _ _ hst _ hb hbad => exact ⟨.payloadCrcMismatch, _, _, _, _, ⟨hst, b, by rw [hb]; rfl, hbad⟩, rfl⟩
  | checkEmpty _ hst hretry => exact ⟨.retriesExhausted, _, _, _, _, ⟨hst, hretry⟩, rfl⟩
  | parseBad _ hst hmagic => exact ⟨.invalidMagic, _, _, _, _, ⟨hst, hmagic⟩, rfl⟩
  | _ => exact absurd rfl hne

/-- The converse, kind by kind: where the sequencer meets a cause and the bus master answers, its step raises the fault. -/
theorem step_emits_of_causes (hturn : s.turn = .seq) (hstalled : s.stalled = false) (hc : s.causes e) :
    ∃ t, step s = .next t ∧ t.diagTrace = s.diagTrace ++ [e.code] := by
  have hseq := step_seq hturn
  cases e with
  | ok => exact hc.elim
  | busResetFailure =>
    obtain ⟨hst, hp⟩ := hc
    obtain ⟨ps, hp⟩ := List.head?_eq_some_iff.1 hp
    rw [hst] at hseq
    exact ⟨_, hseq.trans (execReset_absent hst hstalled hp), rfl⟩
  | commandCrcMismatch =>
    obtain ⟨hst, b, hb, hbad⟩ := hc
    obtain ⟨bs, hb⟩ := List.head?_eq_some_iff.1 hb
    rw [hst] at hseq
    exact ⟨_, hseq.trans (execReadByte_echoBad hst hstalled hb hbad), rfl⟩
  | payloadCrcMismatch =>
    obtain ⟨hst, b, hb, hbad⟩ := hc
    obtain ⟨bs, hb⟩ := List.head?_eq_some_iff.1 hb
    rw [hst] at hseq
    exact ⟨_, hseq.trans (execReadByte_payloadBad hst hstalled hb hbad), rfl⟩
  | retriesExhausted => exact ⟨_, step_check_empty hturn hc.1 hc.2, rfl⟩
  | invalidMagic => exact ⟨_, step_parse_bad hturn hc.1 hc.2, rfl⟩

/-! ### Where a cause can stand (R34, R121, R180) -/

theorem State.causes.holdsLock (hc : s.causes e) : s.holdsLock = true := by
  rw [State.holdsLock_iff]
  cases e with
  | ok => exact hc.elim
  | busResetFailure | commandCrcMismatch | payloadCrcMismatch | retriesExhausted | invalidMagic =>
    obtain ⟨hst, -⟩ := hc
    simp [hst]

theorem State.causes.inAttempt (hc : s.causes e) (htransient : errClass e = .transient) : s.st.inAttempt = true := by
  cases e with
  | busResetFailure | commandCrcMismatch | payloadCrcMismatch =>
    obtain ⟨hst, -⟩ := hc
    rw [hst]
    rfl
  | ok | retriesExhausted | invalidMagic => cases htransient

/-- The block holds the lock only during an attach (R28, R34). -/
theorem State.Inv.busy_of_holdsLock (hinv : s.Inv) (hheld : s.holdsLock = true) : s.busy = true := by
  obtain ⟨hbusy, -⟩ := hinv
  obtain ⟨hidle, -⟩ := State.holdsLock_iff.1 hheld
  exact eq_true_of_ne_false (mt hbusy.1 hidle)

end Sys2Proof.Machine

open Sys2Proof.Machine

/-- Settles O42, turn by turn. -/
theorem stepAlwaysAnswersNext : Obligations.StepAlwaysAnswersNext := by
  intro s
  cases hturn : s.turn with
  | host ctx => exact exists_step_next_of_host hturn
  | seq => exact exists_step_next_of_seq hturn
  | frame => exact exists_step_next_of_frame hturn
  | otherTakes => exact ⟨_, step_otherTakes hturn⟩
  | otherReleases => exact ⟨_, step_otherReleases hturn⟩
  | busStalls => exact ⟨_, step_busStalls hturn⟩
  | busResumes => exact ⟨_, step_busResumes hturn⟩
  | reset => exact ⟨_, step_reset hturn⟩

/-- Settles O52: the entry of a fault is `State.takeFault`, read off by the kind's class. -/
theorem faultsAreTheFive : Obligations.FaultsAreTheFive := by
  refine ⟨fun s t hinv h hne => ?_, fun _ _ => step_emits_of_causes⟩
  obtain ⟨e, ps, bs, reqs, c, hc, rfl⟩ := (step_cases h).takes_fault hne
  have hheld := hc.holdsLock
  have hbusy := hinv.busy_of_holdsLock hheld
  obtain ⟨-, -, hleft, -⟩ := hinv
  cases e with
  | ok => exact hc.elim
  | busResetFailure | commandCrcMismatch | payloadCrcMismatch =>
    exact ⟨_, hc, rfl, hbusy, hbusy, rfl, fun _ => rfl, rfl, hheld, rfl, hleft (hc.inAttempt rfl), rfl, rfl, rfl⟩
  | retriesExhausted | invalidMagic =>
    exact ⟨_, hc, rfl, hbusy, hbusy, rfl, fun _ => rfl, rfl, hheld, rfl, rfl, rfl, rfl⟩
end

section
/-! PROOFS. The reset event, the end of a run and the waits (spec/70_reset_and_hazards.md R212, R223 to R226): a
quiescent state and a waiting sequencer, one step rule each, carried along a run by one induction. -/

namespace Sys2Proof.Machine

variable {s t : State} {ctx n : Nat}

/-! ### The schedule, and what holds along a run -/

theorem StepCase.turns_eq (h : StepCase s t) : t.turns = s.turns.tail := by
  cases h <;> rfl

/-- After the end of the schedule every turn is the sequencer's. -/
theorem State.turn_of_forall {P : Turn → Prop} (hseq : P .seq) (h : ∀ u ∈ s.turns, P u) : P s.turn := by
  unfold State.turn
  split
  · exact hseq
  · next hturns => exact h _ (hturns ▸ List.mem_cons_self)

/-- What every step keeps holds in every state of a run. -/
theorem run_keeps {P : State → Prop} (hkeeps : ∀ s t, P s → step s = .next t → P t) (hs : P s)
    (hr : Host.Core.run Sys2Proof.core n s = .next t) : P t := by
  induction n generalizing s with
  | zero => cases hr; exact hs
  | succ n ih =>
    obtain ⟨u, hstep, hu⟩ := run_succ_eq_next (M := Sys2Proof.core) hr
    exact ih (hkeeps s u hs hstep) hu

/-! ### The reset event (R212) -/

/-- UNLOCK appears exactly when the lock was held. -/
theorem State.resetEvent_busTrace_eq (s : State) :
    s.resetEvent.busTrace = if s.st = .idle ∨ s.st = .lock then s.busTrace else s.busTrace ++ [.unlock] := by
  simp only [State.resetEvent_busTrace, ← State.holdsLock_eq_false_iff, ← Bool.not_eq_true, ite_not]

/-! ### A quiescent state (R225) -/

theorem State.Quiescent.hostCode_eq_none (hq : s.Quiescent) (ctx : Nat) : s.hostCode ctx = none := by
  obtain ⟨-, -, hheld, hprograms⟩ := hq
  exact State.hostCode_eq_none (.inr (by simp [hheld, hprograms]))

theorem step_seq_idle (hturn : s.turn = .seq) (hst : s.st = .idle) : step s = .next s.endTurn := by
  rw [step_seq hturn, hst]

/-- No context has anything to present and the idle sequencer has no step, so only the bus and its master can move. -/
theorem State.Quiescent.step_next (hq : s.Quiescent) (hturn : s.turn ≠ .reset) :
    ∃ owns stalls, step s = .next { s with turns := s.turns.tail, otherOwns := owns, stalled := stalls } := by
  have hidle : s.st = .idle := hq.1
  cases hagent : s.turn with
  | host ctx => exact ⟨_, _, step_host_none hagent (hq.hostCode_eq_none ctx)⟩
  | seq => exact ⟨_, _, step_seq_idle hagent hidle⟩
  | frame => exact ⟨_, _, step_frame_outside_write hagent (by simp [hidle])⟩
  | otherTakes => exact ⟨_, _, step_otherTakes_free hagent (.inl hidle)⟩
  | otherReleases => exact ⟨_, _, step_otherReleases hagent⟩
  | busStalls => exact ⟨_, _, step_busStalls hagent⟩
  | busResumes => exact ⟨_, _, step_busResumes hagent⟩
  | reset => exact absurd hagent hturn

/-- The run is over, and the three observables of R11 are those of `s₀`. -/
def State.OverAs (s₀ s : State) : Prop :=
  s.Quiescent ∧ s.answers = s₀.answers ∧ s.busTrace = s₀.busTrace ∧ s.diagTrace = s₀.diagTrace

/-- A quiescent block does not hold the lock, so even the reset event adds nothing to the bus trace. -/
theorem State.OverAs.step_keeps {s₀ : State} (ho : s₀.OverAs s) (h : step s = .next t) : s₀.OverAs t := by
  obtain ⟨hq, hanswers, hbus, hdiag⟩ := ho
  by_cases hturn : s.turn = .reset
  · cases (step_reset hturn).symm.trans h
    obtain ⟨hidle, -, hheld, hprograms⟩ := hq
    have hnoUnlock : s.endTurn.resetEvent.busTrace = s.busTrace :=
      (State.resetEvent_busTrace_eq _).trans (if_pos (.inl hidle))
    exact ⟨⟨rfl, rfl, hheld, hprograms⟩, hanswers, hnoUnlock.trans hbus, hdiag⟩
  · obtain ⟨owns, stalls, hnext⟩ := hq.step_next hturn
    cases hnext.symm.trans h
    exact ⟨hq, hanswers, hbus, hdiag⟩

/-! ### A waiting sequencer (R90, R111, R223) -/

theorem State.Waiting.not_quiescent (hw : s.Waiting) : ¬s.Quiescent := by
  rintro ⟨hidle, -⟩
  exact hw.1 (by rw [hidle]; rfl)

theorem State.Waiting.step_seq (hw : s.Waiting) (hturn : s.turn = .seq) : step s = .next s.endTurn := by
  obtain ⟨hissues, hwait⟩ := hw
  rw [Machine.step_seq hturn]
  cases hst : s.st with
  | idle | check | parse | store => exact absurd (by rw [hst]; rfl) hissues
  | lock => exact execLock_waits hst hwait
  | reset => exact execReset_waits hst hwait
  | write => exact execWrite_waits hst hwait
  | cmdCrc => exact execReadByte_waits (.inl hst) hwait
  | dataCrc => exact execReadByte_waits (.inr hst) hwait
  | block => exact execReadBlock_waits hst hwait
  | exit => exact execUnlock_waits hst hwait

/-- The frame is the payload of WRITE and waits with it. -/
theorem State.Waiting.step_frame (hw : s.Waiting) (hturn : s.turn = .frame) : step s = .next s.endTurn := by
  obtain ⟨-, hwait⟩ := hw
  rw [Machine.step_frame hturn]
  split
  · next hst => exact execWrite_waits hst hwait
  · rfl

/-- No liberty of a host reaches the sequencer of a running attach: a query or a DETACH gives an answer, an ATTACH is
held (R163, R226). -/
theorem exec_host_busy {i : Instr} (hi : i.format = .hc) (h : exec i s = .next t) (hbusy : s.busy = true) :
    ∃ id cs as, t = { s with identity := id, held := cs, answers := as } := by
  cases i with
  | attach =>
    cases (execAttach_busy hbusy).symm.trans h
    exact ⟨_, _, _, rfl⟩
  | detach | hasIdentity | classification =>
    obtain ⟨id, a, -, rfl⟩ := exec_immediate_next (by simp) h
    exact ⟨_, _, _, rfl⟩
  | lock | reset | write | readByte | readBlock | unlock | readRecordFrame => cases hi

theorem step_host_busy (hturn : s.turn = .host ctx) (h : step s = .next t) (hbusy : s.busy = true) :
    ∃ ts n ps id cs as,
      t = { s with turns := ts, issuer := n, programs := ps, identity := id, held := cs, answers := as } := by
  rcases hcode : s.hostCode ctx with _ | op
  · cases (step_host_none hturn hcode).symm.trans h
    exact ⟨_, _, _, _, _, _, rfl⟩
  · obtain ⟨n, ps, hpresent⟩ := State.present_eq (s := s.endTurn) ctx
    rw [step_host hturn hcode, hpresent] at h
    obtain ⟨id, cs, as, rfl⟩ := exec_host_busy (format_decodeHc op) h hbusy
    exact ⟨_, _, _, _, _, _, rfl⟩

/-- A wait for the lock goes on when another user takes it (R91, R111). -/
theorem State.Waiting.lockTaken (hw : s.Waiting) : State.Waiting { s with otherOwns := true } := by
  obtain ⟨hissues, hwait⟩ := hw
  refine ⟨hissues, fun hready => hwait ?_⟩
  obtain ⟨hstalled, hfree, hanswers⟩ := hready
  exact ⟨hstalled, fun hst => (nomatch hfree hst), hanswers⟩

theorem State.Waiting.busStalls (hw : s.Waiting) : s.busStalls.Waiting := by
  obtain ⟨hissues, -⟩ := hw
  exact ⟨hissues, fun ⟨hstalled, _⟩ => nomatch hstalled⟩

/-- The turn cannot end a wait (R90, R91, R212). -/
def Turn.KeepsWait (u : Turn) : Prop := u ≠ .reset ∧ u ≠ .busResumes ∧ u ≠ .otherReleases

/-- The sequencer waits as it does in `s₀`: in the same state of the same attach, with nothing new on its ports. -/
def State.WaitsAs (s₀ s : State) : Prop :=
  s.Waiting ∧ s.busy = true ∧ s.st = s₀.st ∧ s.retry = s₀.retry ∧ s.server = s₀.server ∧ s.busTrace = s₀.busTrace ∧
    s.diagTrace = s₀.diagTrace

theorem State.Waiting.step_keeps (hw : s.Waiting) (hbusy : s.busy = true) (h : step s = .next t)
    (hturn : s.turn.KeepsWait) : s.WaitsAs t := by
  obtain ⟨hreset, hresumes, hreleases⟩ := hturn
  cases hagent : s.turn with
  | host ctx =>
    obtain ⟨_, _, _, _, _, _, rfl⟩ := step_host_busy hagent h hbusy
    exact ⟨hw, hbusy, rfl, rfl, rfl, rfl, rfl⟩
  | seq =>
    cases (hw.step_seq hagent).symm.trans h
    exact ⟨hw, hbusy, rfl, rfl, rfl, rfl, rfl⟩
  | frame =>
    cases (hw.step_frame hagent).symm.trans h
    exact ⟨hw, hbusy, rfl, rfl, rfl, rfl, rfl⟩
  | otherTakes =>
    cases (step_otherTakes hagent).symm.trans h
    unfold State.otherTakesBus
    split
    · exact ⟨hw, hbusy, rfl, rfl, rfl, rfl, rfl⟩
    · exact ⟨State.Waiting.lockTaken (s := s.endTurn) hw, hbusy, rfl, rfl, rfl, rfl, rfl⟩
  | busStalls =>
    cases (step_busStalls hagent).symm.trans h
    exact ⟨State.Waiting.busStalls (s := s.endTurn) hw, hbusy, rfl, rfl, rfl, rfl, rfl⟩
  | reset => exact absurd hagent hreset
  | busResumes => exact absurd hagent hresumes
  | otherReleases => exact absurd hagent hreleases

/-! ### A stuck run (R223, R225) -/

/-- The sequencer waits in an attach, and nothing scheduled can end the wait. -/
def State.WaitsForever (s : State) : Prop := s.busy = true ∧ s.Waiting ∧ ∀ u ∈ s.turns, u.KeepsWait

theorem State.WaitsForever.step_keeps (hs : s.WaitsForever) (h : step s = .next t) : t.WaitsForever := by
  obtain ⟨hbusy, hw, hturns⟩ := hs
  have hturn : s.turn.KeepsWait := State.turn_of_forall ⟨by decide, by decide, by decide⟩ hturns
  obtain ⟨hw', hbusy', -⟩ := hw.step_keeps hbusy h hturn
  refine ⟨hbusy', hw', fun u hu => hturns u ?_⟩
  rw [(step_cases h).turns_eq] at hu
  exact List.mem_of_mem_tail hu

theorem State.WaitsForever.stuck (hs : s.WaitsForever) : s.Stuck := by
  intro n t hr
  obtain ⟨-, hw, -⟩ := run_keeps (P := State.WaitsForever) (fun _ _ => State.WaitsForever.step_keeps) hs hr
  exact hw

theorem State.Stuck.of_run (hs : s.Stuck) (hr : Host.Core.run Sys2Proof.core n s = .next t) : t.Stuck :=
  fun m u hu => hs (n + m) u ((core_run_add n m hr).trans hu)

theorem State.Stuck.not_quiescent (hs : s.Stuck) (hr : Host.Core.run Sys2Proof.core n s = .next t) : ¬t.Quiescent :=
  (hs n t hr).not_quiescent

end Sys2Proof.Machine

open Sys2Proof.Machine

/-- Settles O7: the step of the reset event is `State.resetEvent`. -/
theorem resetEventAbandonsAttach : Obligations.ResetEventAbandonsAttach := fun s hturn =>
  ⟨s.endTurn.resetEvent, step_reset hturn, rfl, rfl, rfl, rfl, rfl, s.endTurn.resetEvent_busTrace_eq, rfl, rfl, rfl,
    rfl, rfl, rfl⟩

/-- Settles O54: the first clause turn by turn, the second by induction over the run, the third since the idle sequencer
has no step. -/
theorem quiescentStateStays : Obligations.QuiescentStateStays := by
  refine ⟨fun s hq hturn => ?_, fun s t n hq hr => ?_, fun s n hq hnil => ?_⟩
  · obtain ⟨owns, stalls, hnext⟩ := hq.step_next hturn
    exact ⟨_, hnext, rfl⟩
  · exact run_keeps (P := s.OverAs) (fun _ _ => State.OverAs.step_keeps) ⟨hq, rfl, rfl, rfl⟩ hr
  · have hfixed : step s = .next s := by
      rw [step_seq_idle (State.turn_of_nil hnil) hq.1, State.endTurn_of_nil hnil]
    exact core_run_fixed hfixed n

/-- Settles O55: a wait is kept turn by turn, and stays for ever once nothing that could end it is scheduled. -/
theorem stuckStateStays : Obligations.StuckStateStays := by
  refine ⟨fun s t hbusy hw h hreset hresumes hreleases => hw.step_keeps hbusy h ⟨hreset, hresumes, hreleases⟩,
    fun s hbusy hw hturns => State.WaitsForever.stuck ⟨hbusy, hw, hturns⟩, fun s n hw hnil => ?_,
    fun s t n hs hr => ⟨hs.of_run hr, hs.not_quiescent hr⟩, ?_⟩
  · have hfixed : step s = .next s := by
      rw [hw.step_seq (State.turn_of_nil hnil), State.endTurn_of_nil hnil]
    exact core_run_fixed hfixed n
  · rintro s n hs ⟨m, -, t, hr, hq⟩
    exact hs.not_quiescent hr hq
end
